-- ==== Sys2Proof/Word.lean ====
section
/-! DEFINITION. The sizes of 00_scope.md R9 that fix the shape of the block's state and operands, each under its own
name; and the word types: bytes of the wire formats and millisecond times. -/

namespace Sys2Proof
namespace Config

/-! UNVERIFIED like every literal of R9, which the spec calls unaudited (R4; log 9, log 21). Unsafe where the firmware's
literal differs. These sizes shape types. Each is also a field of the configuration, `Config.Valued`, and the legal
configurations are those whose field is the size here (`Params.wf`). -/

/-- N_MAIN: the main encoders (00_scope.md R9). -/
abbrev nMain : Nat := 16
/-- N_CH: the quadrature channels, the main encoders and the navigation encoder (00_scope.md R9). -/
abbrev nCh : Nat := 17
/-- N_SW: the switches (00_scope.md R9). -/
abbrev nSw : Nat := 16
/-- N_BTN: the buttons (00_scope.md R9). -/
abbrev nBtn : Nat := 5
/-- N_BANK: the banks (00_scope.md R9). -/
abbrev nBank : Nat := 4
/-- N_TRACK: the slots of a bank (00_scope.md R9). -/
abbrev nTrack : Nat := 16
/-- Q_CAP: the cells of the outbound queue's ring (00_scope.md R9, 10_state.md R33). -/
abbrev qCap : Nat := 32
/-- TIME_W: the width of every time value (00_scope.md R9, 10_state.md R57). -/
abbrev timeW : Nat := 32
/-- CNT_W: the width of `errorCount` and `sysexCount` (00_scope.md R9). -/
abbrev cntW : Nat := 32
/-- ACC_W: the width of the signed step accumulator (00_scope.md R9). -/
abbrev accW : Nat := 8

end Config

/-- A `u8` of the spec: one byte of a wire format or of an operand (00_scope.md R11). -/
abbrev Byte := BitVec 8

/-- A time value in the time unit, one millisecond, of TIME_W bits (00_scope.md R9, 10_state.md R57). -/
abbrev Time := BitVec Config.timeW

namespace Config

/-- The last byte of a frame, `F7` (30_encoding.md R101). -/
def sysexEnd : Byte := 0xF7

end Config
end Sys2Proof
end

