-- ==== Sys2Proof/Syntax.lean ====
section
/-! DEFINITION. The syntax of the block: outbound messages, configuration edits, the ports and the
transactions presented on them, the names of a decoder's rejections, and the ONE inductive `Instr` with a
constructor for each of the 92 rows of spec/opcode_table.json. -/

namespace Sys2Proof

/-- `controlType` of a slot (10_state.md R28). -/
inductive ControlType where
  | cc
  | note
  | pitchBend
  deriving DecidableEq, Repr, Inhabited

/-- OutboundMessage, a tagged variant with six tags (10_state.md R31). The fields are plain integers, so that
a message outside the ranges of R31 can be written and refused by ENQ (42_outbound.md R203). -/
inductive Msg where
  | controlChange (channel cc value : Nat)
  | noteOn (channel note velocity : Nat)
  | noteOff (channel note velocity : Nat)
  | pitchBend (channel : Nat) (value14 : Int)
  | sysEx (bytes : List Byte)
  | realtime (byte : Byte)
  deriving DecidableEq, Repr, Inhabited

/-- The operands `field, v` of CFGWRITE: one field of a slot and the value to write (41_bank_state.md R191).
The numeric values are plain integers, so that a value outside the field's range can be written and refused
(41_bank_state.md R192). -/
inductive CfgEdit where
  | channel (v : Nat)
  | controlNumber (v : Nat)
  | controlType (v : ControlType)
  | isPan (v : Bool)
  | localValue (v : Nat)
  | minValue (v : Nat)
  | maxValue (v : Nat)
  | dawValue (v : Byte)
  | mute (v : Bool)
  | solo (v : Bool)
  | trackColor (v : BitVec 16)
  | trackName (v : List Byte)
  deriving DecidableEq, Repr

/-- The ports on which a transaction is presented, one for each format of 30_encoding.md R90 and R120
(10_state.md R50 to R58). DESIGN CHOICE (log 2, log 3, log 5): a transaction carries its port, because the
formats of the table overlap as words. Safe. -/
inductive Port where
  /-- The notional command port: an operation number of 30_encoding.md R120 and its operands. -/
  | op
  /-- A quadrature code and the channel that receives it (R91). -/
  | qcode
  /-- The packet port: four bytes and `now` (R93). -/
  | pkt4
  /-- A quarter-frame byte (R104). -/
  | qf8
  /-- The frame port: one whole SysEx frame (R101). -/
  | sysex
  /-- A channel-voice message for the wire (R96). -/
  | cv3
  /-- A realtime byte for the wire (R100). -/
  | rt1
  /-- An already framed SysEx message for the wire (42_outbound.md R215). -/
  | sysexOut
  /-- A transport state byte (R107). -/
  | xport8
  /-- A packed colour (R106). -/
  | rgb565
  /-- A port snapshot (R109). -/
  | snap16
  /-- The pseudo-operations of R121, numbered 0 to 7 in the table's order. -/
  | pseudo
  deriving DecidableEq, Repr

/-- One transaction presented to the block: a port and the bytes on it, first byte first. -/
structure Xact where
  port : Port
  bytes : List Byte
  deriving DecidableEq, Repr

/-- The four classes of an inbound packet, in the order of precedence of 30_encoding.md R94. -/
inductive PktClass where
  | voice
  | mtc
  | realtime
  | ignored
  deriving DecidableEq, Repr

/-- Why a decoder rejects a transaction. Every one is a case of 93_implementation_defined.md U21: the ports
cannot carry such a value. -/
inductive Reject where
  /-- No operation of 30_encoding.md R120 (or pseudo-operation of R121) has this number. -/
  | unknownOperation
  /-- The operand bytes are too few or too many for the operation or the format. -/
  | wrongLength
  /-- A phase sample wider than two bits, a channel above 16, a boolean other than 0 or 1, an unknown tag. -/
  | badOperand
  /-- A channel-voice message whose type nibble is none of 8, 9, B, E or whose data byte has bit 7 set. -/
  | badMessage
  deriving DecidableEq, Repr

/-- One constructor per row of spec/opcode_table.json, in the table's order. -/
inductive Instr where
  -- QCODE: one 4-bit code `lastPhase, newPhase` handed to a channel (R91, R92)
  | qcode0000 (ch : Fin Config.nCh) (now : Time)
  | qcode0001 (ch : Fin Config.nCh) (now : Time)
  | qcode0010 (ch : Fin Config.nCh) (now : Time)
  | qcode0011 (ch : Fin Config.nCh) (now : Time)
  | qcode0100 (ch : Fin Config.nCh) (now : Time)
  | qcode0101 (ch : Fin Config.nCh) (now : Time)
  | qcode0110 (ch : Fin Config.nCh) (now : Time)
  | qcode0111 (ch : Fin Config.nCh) (now : Time)
  | qcode1000 (ch : Fin Config.nCh) (now : Time)
  | qcode1001 (ch : Fin Config.nCh) (now : Time)
  | qcode1010 (ch : Fin Config.nCh) (now : Time)
  | qcode1011 (ch : Fin Config.nCh) (now : Time)
  | qcode1100 (ch : Fin Config.nCh) (now : Time)
  | qcode1101 (ch : Fin Config.nCh) (now : Time)
  | qcode1110 (ch : Fin Config.nCh) (now : Time)
  | qcode1111 (ch : Fin Config.nCh) (now : Time)
  -- PKT4: inbound packets by class (R93, R94); `hi` is header[7:4], read by no rule
  | pktCv8 (hi : BitVec 4) (status data1 data2 : Byte) (now : Time)
  | pktCv9 (hi : BitVec 4) (status data1 data2 : Byte) (now : Time)
  | pktCvA (hi : BitVec 4) (status data1 data2 : Byte) (now : Time)
  | pktCvB (hi : BitVec 4) (status data1 data2 : Byte) (now : Time)
  | pktCvC (hi : BitVec 4) (status data1 data2 : Byte) (now : Time)
  | pktCvD (hi : BitVec 4) (status data1 data2 : Byte) (now : Time)
  | pktCvE (hi : BitVec 4) (status data1 data2 : Byte) (now : Time)
  | pktMtc (header qf data2 : Byte) (now : Time)
  | pktRtF8 (hi : BitVec 4) (data1 data2 : Byte) (now : Time)
  | pktRtF9 (hi : BitVec 4) (data1 data2 : Byte) (now : Time)
  | pktRtFA (hi : BitVec 4) (data1 data2 : Byte) (now : Time)
  | pktRtFB (hi : BitVec 4) (data1 data2 : Byte) (now : Time)
  | pktRtFC (hi : BitVec 4) (data1 data2 : Byte) (now : Time)
  | pktRtFD (hi : BitVec 4) (data1 data2 : Byte) (now : Time)
  | pktRtFE (hi : BitVec 4) (data1 data2 : Byte) (now : Time)
  | pktRtFF (hi : BitVec 4) (data1 data2 : Byte) (now : Time)
  | pktIgnored (header status data1 data2 : Byte) (now : Time)
  -- QF8: quarter-frame bytes by piece (R104, R105); `x` is bit 7, ignored
  | qfP0 (x : BitVec 1) (n : BitVec 4)
  | qfP1 (x : BitVec 1) (n : BitVec 4)
  | qfP2 (x : BitVec 1) (n : BitVec 4)
  | qfP3 (x : BitVec 1) (n : BitVec 4)
  | qfP4 (x : BitVec 1) (n : BitVec 4)
  | qfP5 (x : BitVec 1) (n : BitVec 4)
  | qfP6 (x : BitVec 1) (n : BitVec 4)
  | qfP7 (x : BitVec 1) (n : BitVec 4)
  -- SYSEX, inbound: frames by type (R101, R102); `payload` is bytes 7 to L-2
  | sxT01 (track bank : Byte) (payload : List Byte)
  | sxT02 (track bank : Byte) (payload : List Byte)
  | sxT03 (track bank : Byte) (payload : List Byte)
  | sxT04 (track bank : Byte) (payload : List Byte)
  | sxT05 (track bank : Byte) (payload : List Byte)
  | sxT06 (track bank : Byte) (payload : List Byte)
  | sxMalformed (bytes : List Byte)
  -- TX: one message written on the wire (42_outbound.md R210 to R216); `c` is channel-1
  | txControlChange (c : BitVec 4) (k v : BitVec 7)
  | txNoteOn (c : BitVec 4) (n v : BitVec 7)
  | txNoteOff (c : BitVec 4) (n v : BitVec 7)
  | txPitchBend (c : BitVec 4) (l m : BitVec 7)
  | txRealtime (b : Byte)
  | txSysEx (bytes : List Byte)
  -- value formats
  | xport8 (b : Byte)
  | rgb565 (r : BitVec 5) (g : BitVec 6) (b : BitVec 5)
  | snap16 (button : Bool) (snap : BitVec 16) (now : Time)
  -- the operations of R120
  | qsample (ch : Fin Config.nCh) (ph : BitVec 2) (now : Time)
  | flagset (h : Nat)
  | flagclr (h : Nat)
  | swpoll (snap : BitVec 16) (now : Time)
  | btnpoll (snap : BitVec 16) (now : Time)
  | navenc (ph : BitVec 2) (now : Time)
  | navbtn (lvl : Bool) (now : Time)
  | setaccel (en : Bool)
  | applystep (index : Byte) (delta : BitVec 8) (bank : Byte)
  | applysw (sw bank : Byte)
  | dawsync (track bank : Byte) (value : Option Byte) (color : Option (BitVec 16)) (name : Option (List Byte))
  | setbank (bank : Byte)
  | resetslot (bank track : Byte)
  | resetall
  | slotread (bank track : Byte)
  | cfgwrite (bank track : Byte) (edit : CfgEdit)
  | serialize
  | deserialize (blob : List Byte)
  | enq (msg : Msg)
  | drain
  | rxpkt (header status data1 data2 : Byte) (now : Time)
  | rxsysex (bytes : List Byte)
  | pack565 (r g b : Byte)
  | unpack565 (c : BitVec 16)
  | mtcqf (b : Byte)
  | rt (status : Byte) (now : Time)
  | statread (i : Byte)
  -- the pseudo-operations of R121
  | encservice (h : Nat) (ph : Vector (BitVec 2) Config.nMain) (now : Time)
  | sysreset (now : Time)
  | rtbyte (s : Byte) (now : Time)
  | qframe (p : BitVec 3) (n : BitVec 4)
  | mtcfull (hh mm ss ff : Byte) (r : BitVec 2)
  | sx (t track bank : Byte) (payload : List Byte)
  | turncw (ch : Fin Config.nCh) (t0 dt : Time)
  | turnccw (ch : Fin Config.nCh) (t0 dt : Time)
  deriving DecidableEq, Repr

end Sys2Proof
end

