-- ==== Sys2Proof/Config.lean ====
section
/-! DEFINITION. What an implementation of the block fixes: every literal of 00_scope.md R9 as a field of one record, the
record of one encoder slot (10_state.md R28), the parameters of the block as one plain record `Params`, the fixture of
95_test_vectors.md for the open ones, and the pair of functions of the persistence blob, free but for its law. -/

namespace Sys2Proof
namespace Config

/-- Every parameter of 00_scope.md R9 that has a value, kept as a configuration field as R9 asks of a model. `r9` holds
the values this hardware takes (log 9). The operations read STEP_DIV to T_NAVBTN, MTC_F to MTC_H, Q_CAP, NAME_RX, NAME_VIS
and SYSEX_ID from the field; VAL_MIN_DEF and VAL_MAX_DEF bound the compiled-in slots. N_MAIN to N_TRACK and the three widths,
and Q_CAP as the number of cells, are sizes of types, and a type is fixed once (Word.lean): a configuration whose size is
another is no legal one (`Params.wf`). -/
structure Valued where
  /-- N_MAIN: the main encoders. -/
  nMain : Nat
  /-- N_CH: the quadrature channels, the main encoders and the navigation encoder. -/
  nCh : Nat
  /-- N_SW: the switches. -/
  nSw : Nat
  /-- N_BTN: the buttons. -/
  nBtn : Nat
  /-- N_BANK: the banks. -/
  nBank : Nat
  /-- N_TRACK: the slots of a bank. -/
  nTrack : Nat
  /-- Q_CAP: the capacity of the outbound queue, in messages (42_outbound.md R201). -/
  qCap : Nat
  /-- NAME_RX: the characters the SysEx name decoder keeps (43_inbound_sysex.md R252). -/
  nameRx : Nat
  /-- NAME_VIS: the characters a slot stores (10_state.md R28). -/
  nameVis : Nat
  /-- SYSEX_ID: the frame prefix (43_inbound_sysex.md R241). -/
  sysexId : List Byte
  /-- TIME_W: the width of every time value. -/
  timeW : Nat
  /-- CNT_W: the width of `errorCount` and `sysexCount`. -/
  cntW : Nat
  /-- ACC_W: the width of the signed step accumulator. -/
  accW : Nat
  /-- STEP_DIV: the numerator of the emit threshold (40_input_decoder.md R136). -/
  stepDiv : Nat
  /-- T_FAST: an interval below it selects M_FAST (40_input_decoder.md R134). -/
  tFast : Nat
  /-- T_MED: an interval below it selects M_MED (40_input_decoder.md R134). -/
  tMed : Nat
  /-- M_FAST: the multiplier of the fastest band. -/
  mFast : Nat
  /-- M_MED: the multiplier of the middle band. -/
  mMed : Nat
  /-- M_SLOW: the multiplier otherwise, and whenever acceleration is off. -/
  mSlow : Nat
  /-- T_DEB: the least interval between accepted switch or button samples (40_input_decoder.md R151). -/
  tDeb : Nat
  /-- T_NAV: the least interval between accepted navigation-encoder samples (40_input_decoder.md R156). -/
  tNav : Nat
  /-- T_NAVBTN: the confirmation window of the navigation button (40_input_decoder.md R160). -/
  tNavBtn : Nat
  /-- VAL_MIN_DEF: the `minValue` of a compiled-in slot (10_state.md R43). -/
  valMinDef : BitVec 7
  /-- VAL_MAX_DEF: the `maxValue` of a compiled-in slot (10_state.md R43). -/
  valMaxDef : BitVec 7
  /-- MTC_F: the exclusive bound of a valid frame number (44_mtc_transport.md R279). -/
  mtcF : Nat
  /-- MTC_S: the exclusive bound of a valid second. -/
  mtcS : Nat
  /-- MTC_M: the exclusive bound of a valid minute. -/
  mtcM : Nat
  /-- MTC_H: the exclusive bound of a valid hour. -/
  mtcH : Nat
  deriving DecidableEq, Repr

/-- The value column of 00_scope.md R9. UNVERIFIED like every literal of R9, which the spec calls unaudited (R4;
log 21). Unsafe where the firmware's literal differs. -/
def r9 : Valued :=
  { nMain := nMain, nCh := nCh, nSw := nSw, nBtn := nBtn, nBank := nBank, nTrack := nTrack, qCap := qCap
    nameRx := 5, nameVis := 4, sysexId := [0xF0, 0x00, 0x21, 0x7B], timeW := timeW, cntW := cntW, accW := accW
    stepDiv := 4, tFast := 1, tMed := 5, mFast := 4, mMed := 2, mSlow := 1, tDeb := 50, tNav := 2, tNavBtn := 50
    valMinDef := 0, valMaxDef := 127, mtcF := 30, mtcS := 60, mtcM := 60, mtcH := 24 }

end Config

/-- EncoderSlot (10_state.md R28), at the widths R28 gives. `channel` holds the MIDI channel less one, 0 to 15, so
that the range 1 to 16 holds by its type (log 15); `Slot.channelNo` is the channel of the spec. -/
structure Slot where
  channel : Fin 16
  controlNumber : BitVec 7
  controlType : ControlType
  isPan : Bool
  localValue : BitVec 7
  minValue : BitVec 7
  maxValue : BitVec 7
  dawValue : Byte
  mute : Bool
  solo : Bool
  trackColor : BitVec 16
  trackName : List Byte
  deriving DecidableEq, Repr, Inhabited

/-- The slot's MIDI channel, 1 to 16 (10_state.md R28). -/
def Slot.channelNo (x : Slot) : Nat := x.channel.val + 1

/-- The slot invariant of 10_state.md R29 and the name length of R28, at most `nameVis` characters: the two facts about a
slot that its types do not already give. -/
abbrev Slot.wf (nameVis : Nat) (x : Slot) : Prop :=
  x.minValue.toNat ≤ x.localValue.toNat ∧ x.localValue.toNat ≤ x.maxValue.toNat ∧ x.trackName.length ≤ nameVis

/-- The 4 × 16 table of slots (10_state.md R30). -/
abbrev SlotTable := Vector (Vector Slot Config.nTrack) Config.nBank

/-- The slot in bank `b`, track `t` (20_memory.md R61). -/
def SlotTable.at (x : SlotTable) (b : Fin Config.nBank) (t : Fin Config.nTrack) : Slot := x[b.val][t.val]

/-- The table with the slot in bank `b`, track `t` replaced (20_memory.md R61). -/
def SlotTable.put (x : SlotTable) (b : Fin Config.nBank) (t : Fin Config.nTrack) (v : Slot) : SlotTable :=
  x.set b.val (x[b.val].set t.val v)

namespace Config

/-- The parameters of 00_scope.md R9: those it gives a value, and the open parameters, which the model takes as
an argument. They stand in State as `cfg`, so that a statement about every state is one about every value of them (log 9).
N_HALF is the number of flags State holds. -/
structure Params where
  /-- The parameters R9 gives a value. -/
  valued : Valued
  /-- HALF_OF(i): the flag that covers main encoder i. -/
  halfOf : Vector Nat nMain
  /-- T_MAIN: the main-encoder poll interval, which no operation reads (00_scope.md R9, 91_not_in_source.md N3); it exceeds
  T_NAV (70_reset_and_hazards.md R362). -/
  tMain : Nat
  /-- NOTE_ON_VEL: the velocity of a generated NoteOn, a data byte 0 to 127. -/
  noteOnVel : BitVec 7
  /-- XPORT_PLAY: the bit of `playing` in the transport state byte, 0 to 6 (92_eei_decisions.md D35). -/
  xportPlay : Fin 7
  /-- XPORT_REC: the bit of `recording`. -/
  xportRec : Fin 7
  /-- XPORT_PAUSE: the bit of `paused`. -/
  xportPause : Fin 7
  /-- DEFAULTS(b,t): the compiled-in slots. -/
  defaults : SlotTable
  /-- ACCEL_DEF: the reset value of the acceleration enable. -/
  accelDef : Bool
  /-- SYSEX_MAX: the longest SysEx message a queue entry holds. -/
  sysexMax : Nat
  deriving DecidableEq, Repr

/-- What the spec demands of the parameters: those it gives a value have that value (00_scope.md R9), the main encoders'
poll interval exceeds the navigation encoder's (70_reset_and_hazards.md R362), the compiled-in slots satisfy 10_state.md R28
and R29 with the default bounds (R43), and the three bits of the transport byte are distinct (92_eei_decisions.md D35). -/
def Params.wf (p : Params) : Prop :=
  p.valued = r9 ∧ p.valued.tNav < p.tMain ∧
  (∀ b t, (p.defaults.at b t).wf p.valued.nameVis ∧ (p.defaults.at b t).minValue = p.valued.valMinDef ∧
    (p.defaults.at b t).maxValue = p.valued.valMaxDef) ∧
  p.xportPlay ≠ p.xportRec ∧ p.xportPlay ≠ p.xportPause ∧ p.xportRec ≠ p.xportPause

/-- The slot the fixture of 95_test_vectors.md gives track `t` of every bank. DESIGN CHOICE (log 9): the source
names compiled-in defaults and lists none. Unsafe for a claim that leans on it. -/
def fixtureSlot (t : BitVec 7) : Slot :=
  { channel := 0, controlNumber := t, controlType := .cc, isPan := false, localValue := 0,
    minValue := r9.valMinDef, maxValue := r9.valMaxDef, dawValue := 0, mute := false, solo := false, trackColor := 0,
    trackName := [] }

/-- One bank of the fixture: controller t on track t. -/
def fixtureBank : Vector Slot nTrack :=
  #v[fixtureSlot 0, fixtureSlot 1, fixtureSlot 2, fixtureSlot 3, fixtureSlot 4, fixtureSlot 5, fixtureSlot 6,
    fixtureSlot 7, fixtureSlot 8, fixtureSlot 9, fixtureSlot 10, fixtureSlot 11, fixtureSlot 12, fixtureSlot 13,
    fixtureSlot 14, fixtureSlot 15]

/-- The parameter values State.reset carries: R9's own where it gives them, else the fixture of 95_test_vectors.md (R9's
defaults), and 16 for SYSEX_MAX and 3 for T_MAIN, which R9 leaves without a default; 3 is the least T_MAIN that
70_reset_and_hazards.md R362 allows. DESIGN CHOICE (log 9). Unsafe for a claim that leans on them. -/
def fixture : Params :=
  { valued := r9
    halfOf := #v[0, 0, 0, 0, 0, 0, 0, 0, 1, 1, 1, 1, 1, 1, 1, 1]
    tMain := 3
    noteOnVel := 127
    xportPlay := 0
    xportRec := 1
    xportPause := 2
    defaults := #v[fixtureBank, fixtureBank, fixtureBank, fixtureBank]
    accelDef := true
    sysexMax := 16 }

/-- N_HALF of State.reset: the default of 00_scope.md R9. DESIGN CHOICE (log 9). Unsafe for a claim that leans on it. -/
def fixtureHalves : Nat := 2

/-- What SERIALIZE and DESERIALIZE carry: the full BankTable (10_state.md R30, with `currentBank`) and the
configuration `accelEn` (41_bank_state.md R196). -/
structure Saved where
  slots : SlotTable
  currentBank : Fin nBank
  accelEn : Bool
  deriving DecidableEq, Repr, Inhabited

/-! ## The blob: the abstract pair of 41_bank_state.md R196 -/

/-- A pair of functions that write and read a blob, with the law R196 names: reading what was written gives it back. -/
structure BlobPair where
  /-- What SERIALIZE writes. -/
  write : Saved → List Byte
  /-- What DESERIALIZE reads. -/
  read : List Byte → Saved
  /-- `DESERIALIZE(SERIALIZE(state)) = state` on the bank table and `accelEn` (41_bank_state.md R196,
  92_eei_decisions.md D43): the named assumption on the blob. -/
  roundTrip : ∀ x, read (write x) = x

/-- The pair of this hardware: a FREE VALUE that keeps the law, because no source gives the blob's layout
(91_not_in_source.md N20; log 11). It has no body; its argument says only that some pair exists. -/
opaque blobPair (somePair : Inhabited BlobPair) : BlobPair

/-! The pair `countedPair` below serves as that argument and for nothing else: no layout is taken from it. -/

/-- The words of `n` bits can be numbered. -/
abbrev numberedWord (n : Nat) : Encodable (BitVec n) := Encodable.ofLeftInverse BitVec.toFin BitVec.ofFin fun _ => rfl

/-- The vectors over a type that can be numbered can be numbered. -/
abbrev numberedVector {α : Type} (n : Nat) (e : Encodable α) : Encodable (Vector α n) :=
  Encodable.ofLeftInjection Vector.toList (fun l => if h : l.length = n then some (Vector.mk l.toArray h) else none)
    fun v => by simp [Vector.toList]

/-- The control types can be numbered. -/
abbrev numberedControlType : Encodable ControlType :=
  Encodable.ofLeftInverse (α := Nat) (fun | .cc => 0 | .note => 1 | .pitchBend => 2)
    (fun | 0 => .cc | 1 => .note | _ => .pitchBend) fun x => by cases x <;> rfl

/-- The slots can be numbered. -/
abbrev numberedSlot : Encodable Slot :=
  letI := numberedWord 7
  letI := numberedWord 8
  letI := numberedWord 16
  letI := numberedControlType
  Encodable.ofLeftInverse
    (fun x => (x.channel, x.controlNumber, x.controlType, x.isPan, x.localValue, x.minValue, x.maxValue, x.dawValue,
      x.mute, x.solo, x.trackColor, x.trackName))
    (fun (a, b, c, d, e, f, g, h, i, j, k, l) => ⟨a, b, c, d, e, f, g, h, i, j, k, l⟩) fun _ => rfl

/-- What a blob carries can be numbered. -/
abbrev numberedSaved : Encodable Saved :=
  letI := numberedVector nBank (numberedVector nTrack numberedSlot)
  Encodable.ofLeftInverse (α := SlotTable × Fin nBank × Bool) (fun x => (x.slots, x.currentBank, x.accelEn))
    (fun (a, b, c) => ⟨a, b, c⟩) fun _ => rfl

/-- Some pair keeps the law: the blob of as many zeros as the number of what it carries. -/
def countedPair : BlobPair :=
  letI := numberedSaved
  { write := fun x => List.replicate (Encodable.encode x) 0
    read := fun blob => (Encodable.decode blob.length).getD default
    roundTrip := fun x => by simp }

/-- The blob SERIALIZE returns (41_bank_state.md R196; log 11). -/
def blobOf : Saved → List Byte := (blobPair ⟨countedPair⟩).write

/-- What DESERIALIZE reads from a blob (41_bank_state.md R196; log 11). -/
def savedOf : List Byte → Saved := (blobPair ⟨countedPair⟩).read

/-- The named assumption of R196, of the two functions the meanings use. -/
theorem savedOf_blobOf (x : Saved) : savedOf (blobOf x) = x := (blobPair ⟨countedPair⟩).roundTrip x

end Config
end Sys2Proof
end

