-- ==== Sys2Proof/WellFormed.lean ====
section
/-! DEFINITION. The well-formed instructions: those whose operands fit the bytes of their port and lie in the
range the spec gives them, and whose row is the one the words belong to. -/

namespace Sys2Proof

/-- The message fits the operand bytes of ENQ on the command port: numbers of one byte, `value14` in sixteen bits
(log 2). A message that fits need not be one of 10_state.md R32: ENQ refuses those. -/
def Msg.fits : Msg → Bool
  | .controlChange c k v => decide (c < 256) && decide (k < 256) && decide (v < 256)
  | .noteOn c n v => decide (c < 256) && decide (n < 256) && decide (v < 256)
  | .noteOff c n v => decide (c < 256) && decide (n < 256) && decide (v < 256)
  | .pitchBend c v => decide (c < 256) && decide (-32768 ≤ v) && decide (v < 32768)
  | .sysEx _ => true
  | .realtime _ => true

/-- The edit fits the operand bytes of CFGWRITE on the command port (log 2). -/
def CfgEdit.fits : CfgEdit → Bool
  | .channel v => decide (v < 256)
  | .controlNumber v => decide (v < 256)
  | .controlType _ => true
  | .isPan _ => true
  | .localValue v => decide (v < 256)
  | .minValue v => decide (v < 256)
  | .maxValue v => decide (v < 256)
  | .dawValue _ => true
  | .mute _ => true
  | .solo _ => true
  | .trackColor _ => true
  | .trackName _ => true

/-- The header's code-index number is that of a channel-voice packet, 0x8 to 0xE (30_encoding.md R94, row 1). -/
def isVoiceHeader (header : Byte) : Bool :=
  decide (8 ≤ (header.extractLsb' 0 4).toNat) && decide ((header.extractLsb' 0 4).toNat ≤ 14)

/-- The packet is one of 30_encoding.md R94's fourth row: it meets none of the first three conditions. -/
def isIgnoredPacket (header status : Byte) : Bool :=
  !isVoiceHeader header && decide (status ≠ 0xF1) &&
    !(decide ((header.extractLsb' 0 4).toNat = 15) && decide (0xF8 ≤ status.toNat))

/-- The bytes are a vendor frame of a known type: at least eight bytes, `F0 00 21 7B` first, `F7` last, and a type
`01` to `06` (43_inbound_sysex.md R241, R242). -/
def isKnownFrame (bytes : List Byte) : Bool :=
  decide (8 ≤ bytes.length) && decide (bytes.take 4 = Config.r9.sysexId) &&
    decide (bytes.getLast? = some Config.sysexEnd) &&
    decide (1 ≤ (bytes.getD 4 0).toNat) && decide ((bytes.getD 4 0).toNat ≤ 6)

/-- The well-formed instructions. -/
def Instr.wellFormed : Instr → Bool
  | .qcode0000 _ _ | .qcode0001 _ _ | .qcode0010 _ _ | .qcode0011 _ _ => true
  | .qcode0100 _ _ | .qcode0101 _ _ | .qcode0110 _ _ | .qcode0111 _ _ => true
  | .qcode1000 _ _ | .qcode1001 _ _ | .qcode1010 _ _ | .qcode1011 _ _ => true
  | .qcode1100 _ _ | .qcode1101 _ _ | .qcode1110 _ _ | .qcode1111 _ _ => true
  | .pktCv8 _ _ _ _ _ | .pktCv9 _ _ _ _ _ | .pktCvA _ _ _ _ _ | .pktCvB _ _ _ _ _ => true
  | .pktCvC _ _ _ _ _ | .pktCvD _ _ _ _ _ | .pktCvE _ _ _ _ _ => true
  | .pktMtc header _ _ _ => !isVoiceHeader header
  | .pktRtF8 _ _ _ _ | .pktRtF9 _ _ _ _ | .pktRtFA _ _ _ _ | .pktRtFB _ _ _ _ => true
  | .pktRtFC _ _ _ _ | .pktRtFD _ _ _ _ | .pktRtFE _ _ _ _ | .pktRtFF _ _ _ _ => true
  | .pktIgnored header status _ _ _ => isIgnoredPacket header status
  | .qfP0 _ _ | .qfP1 _ _ | .qfP2 _ _ | .qfP3 _ _ | .qfP4 _ _ | .qfP5 _ _ | .qfP6 _ _ | .qfP7 _ _ => true
  | .sxT01 _ _ _ | .sxT02 _ _ _ | .sxT03 _ _ _ | .sxT04 _ _ _ | .sxT05 _ _ _ | .sxT06 _ _ _ => true
  | .sxMalformed bytes => !isKnownFrame bytes
  | .txControlChange _ _ _ | .txNoteOn _ _ _ | .txNoteOff _ _ _ | .txPitchBend _ _ _ => true
  | .txRealtime _ | .txSysEx _ => true
  | .xport8 _ | .rgb565 _ _ _ | .snap16 _ _ _ => true
  | .qsample _ _ _ => true
  | .flagset h => decide (h < 256)
  | .flagclr h => decide (h < 256)
  | .swpoll _ _ | .btnpoll _ _ | .navenc _ _ | .navbtn _ _ | .setaccel _ => true
  | .applystep _ _ _ | .applysw _ _ => true
  | .dawsync _ _ _ _ name => decide ((name.getD []).length ≤ Config.r9.nameRx)
  | .setbank _ | .resetslot _ _ | .resetall | .slotread _ _ => true
  | .cfgwrite _ _ edit => edit.fits
  | .serialize => true
  | .deserialize _ => true
  | .enq msg => msg.fits
  | .drain | .rxpkt _ _ _ _ _ => true
  | .rxsysex _ => true
  | .pack565 _ _ _ | .unpack565 _ | .mtcqf _ => true
  | .rt status _ => decide (0xF8 ≤ status.toNat)
  | .statread _ => true
  | .encservice h _ _ => decide (h < 256)
  | .sysreset _ => true
  | .rtbyte s _ => decide (0xF8 ≤ s.toNat)
  | .qframe _ _ | .mtcfull _ _ _ _ _ => true
  | .sx _ _ _ _ => true
  | .turncw _ _ _ | .turnccw _ _ _ => true

end Sys2Proof
end

