-- ==== Sys2Proof/Decode.lean ====
section
/-! DEFINITION. The decoder, total on any bytes of any port and rejecting by name; after it the encoder, written
from the same tables of 30_encoding.md; and the host's reading of one row of the opcode table. The bit fields, the byte
order and the framing that decoding shares with the machine stand here, once. -/

namespace Sys2Proof

/-! ## Byte order and bit fields -/

/-- A 16-bit operand from its two bytes, the more significant first (log 2). -/
def be16 (a b : Byte) : BitVec 16 := a ++ b

/-- A 32-bit operand from its four bytes, the most significant first (log 2; 95_test_vectors.md P1). -/
def be32 (a b c d : Byte) : BitVec 32 := a ++ b ++ c ++ d

/-- The two bytes of a 16-bit operand, the more significant first. -/
def bytes16 (w : BitVec 16) : List Byte := [w.extractLsb' 8 8, w.extractLsb' 0 8]

/-- The four bytes of a 32-bit operand, the most significant first. -/
def bytes32 (w : BitVec 32) : List Byte :=
  [w.extractLsb' 24 8, w.extractLsb' 16 8, w.extractLsb' 8 8, w.extractLsb' 0 8]

/-- A boolean operand: byte 0 or 1 (93_implementation_defined.md U21). -/
def boolOf (b : Byte) : Except Reject Bool :=
  if b = 0 then .ok false else if b = 1 then .ok true else .error .badOperand

/-- The byte of a boolean operand. -/
def byteOfBool (v : Bool) : Byte := if v then 1 else 0

/-- An operand of `n` bits, `n` at most 8, carried in the low bits of a byte whose other bits are 0. -/
def narrow (n : Nat) (b : Byte) : Except Reject (BitVec n) :=
  if b.toNat < 2 ^ n then .ok (b.setWidth n) else .error .badOperand

/-- A channel operand, 0 to 16 (40_input_decoder.md R131, U21). -/
def channelOf (b : Byte) : Except Reject (Fin Config.nCh) :=
  if h : b.toNat < Config.nCh then .ok ⟨b.toNat, h⟩ else .error .badOperand

/-- The MIDI channel of a message or slot operand: the byte holds the channel less one, as on the wire
(30_encoding.md R98), modulo 256 (log 2). -/
def midiChannelOf (b : Byte) : Nat := (b + 1).toNat

/-- The byte of a MIDI channel operand. -/
def byteOfMidiChannel (c : Nat) : Byte := BitVec.ofNat 8 (c + 255)

/-- The code-index number, the low nibble of the header (30_encoding.md R93). -/
def cin (header : Byte) : BitVec 4 := header.extractLsb' 0 4

/-- The class of a packet, precedence top to bottom (30_encoding.md R94, 43_inbound_sysex.md R231). -/
def packetClass (header status : Byte) : PktClass :=
  if 8 ≤ (cin header).toNat ∧ (cin header).toNat ≤ 14 then .voice
  else if status = 0xF1 then .mtc
  else if (cin header).toNat = 15 ∧ 0xF8 ≤ status.toNat then .realtime
  else .ignored

/-- The envelope check of a vendor frame (43_inbound_sysex.md R241): at least eight bytes, the four of SYSEX_ID first and
`F7` last. It answers the type, the track, the bank and the payload, bytes 7 to L - 2 (30_encoding.md R101). -/
def parseFrame (sysexId : List Byte) : List Byte → Option (Byte × Byte × Byte × List Byte)
  | b0 :: b1 :: b2 :: b3 :: t :: track :: bank :: rest =>
    if [b0, b1, b2, b3] = sysexId ∧ rest.getLast? = some Config.sysexEnd then
      some (t, track, bank, rest.dropLast)
    else none
  | _ => none

/-- The vendor frame with this type, track, bank and payload (30_encoding.md R101). -/
def frameOf (t track bank : Byte) (payload : List Byte) : List Byte :=
  Config.r9.sysexId ++ ([t, track, bank] ++ payload) ++ [Config.sysexEnd]

/-! ## The decoder -/

/-- The instruction of a quadrature code (30_encoding.md R91, R92). -/
def instrOfCode (code : BitVec 4) (ch : Fin Config.nCh) (now : Time) : Instr :=
  match code.toNat with
  | 0 => .qcode0000 ch now
  | 1 => .qcode0001 ch now
  | 2 => .qcode0010 ch now
  | 3 => .qcode0011 ch now
  | 4 => .qcode0100 ch now
  | 5 => .qcode0101 ch now
  | 6 => .qcode0110 ch now
  | 7 => .qcode0111 ch now
  | 8 => .qcode1000 ch now
  | 9 => .qcode1001 ch now
  | 10 => .qcode1010 ch now
  | 11 => .qcode1011 ch now
  | 12 => .qcode1100 ch now
  | 13 => .qcode1101 ch now
  | 14 => .qcode1110 ch now
  | _ => .qcode1111 ch now

/-- The quadrature port: the code, the channel and `now` (log 3). -/
def decodeQcode : List Byte → Except Reject Instr
  | [c, ch, n3, n2, n1, n0] => do
    let code ← narrow 4 c
    let k ← channelOf ch
    return instrOfCode code k (be32 n3 n2 n1 n0)
  | _ => .error .wrongLength

/-- The packet port: four bytes and `now` (30_encoding.md R93, R94). -/
def decodePacket : List Byte → Except Reject Instr
  | [header, status, data1, data2, n3, n2, n1, n0] =>
    let now := be32 n3 n2 n1 n0
    let hi := header.extractLsb' 4 4
    match packetClass header status with
    | .voice =>
      match (cin header).toNat with
      | 8 => .ok (.pktCv8 hi status data1 data2 now)
      | 9 => .ok (.pktCv9 hi status data1 data2 now)
      | 10 => .ok (.pktCvA hi status data1 data2 now)
      | 11 => .ok (.pktCvB hi status data1 data2 now)
      | 12 => .ok (.pktCvC hi status data1 data2 now)
      | 13 => .ok (.pktCvD hi status data1 data2 now)
      | _ => .ok (.pktCvE hi status data1 data2 now)
    | .mtc => .ok (.pktMtc header data1 data2 now)
    | .realtime =>
      match status.toNat with
      | 0xF8 => .ok (.pktRtF8 hi data1 data2 now)
      | 0xF9 => .ok (.pktRtF9 hi data1 data2 now)
      | 0xFA => .ok (.pktRtFA hi data1 data2 now)
      | 0xFB => .ok (.pktRtFB hi data1 data2 now)
      | 0xFC => .ok (.pktRtFC hi data1 data2 now)
      | 0xFD => .ok (.pktRtFD hi data1 data2 now)
      | 0xFE => .ok (.pktRtFE hi data1 data2 now)
      | _ => .ok (.pktRtFF hi data1 data2 now)
    | .ignored => .ok (.pktIgnored header status data1 data2 now)
  | _ => .error .wrongLength

/-- The quarter-frame port: one byte, piece in bits 6 to 4, nibble in bits 3 to 0 (30_encoding.md R104). -/
def decodeQuarter : List Byte → Except Reject Instr
  | [b] =>
    let x := b.extractLsb' 7 1
    let n := b.extractLsb' 0 4
    match (b.extractLsb' 4 3).toNat with
    | 0 => .ok (.qfP0 x n)
    | 1 => .ok (.qfP1 x n)
    | 2 => .ok (.qfP2 x n)
    | 3 => .ok (.qfP3 x n)
    | 4 => .ok (.qfP4 x n)
    | 5 => .ok (.qfP5 x n)
    | 6 => .ok (.qfP6 x n)
    | _ => .ok (.qfP7 x n)
  | _ => .error .wrongLength

/-- The frame port: one whole frame (30_encoding.md R101, R102; 43_inbound_sysex.md R241, R242, R247). -/
def decodeFrame (bytes : List Byte) : Except Reject Instr :=
  match parseFrame Config.r9.sysexId bytes with
  | none => .ok (.sxMalformed bytes)
  | some (t, track, bank, payload) =>
    match t.toNat with
    | 1 => .ok (.sxT01 track bank payload)
    | 2 => .ok (.sxT02 track bank payload)
    | 3 => .ok (.sxT03 track bank payload)
    | 4 => .ok (.sxT04 track bank payload)
    | 5 => .ok (.sxT05 track bank payload)
    | 6 => .ok (.sxT06 track bank payload)
    | _ => .ok (.sxMalformed bytes)

/-- A channel-voice message for the wire (30_encoding.md R96, R97). -/
def decodeVoice : List Byte → Except Reject Instr
  | [st, d1, d2] => do
    let a ← (narrow 7 d1).mapError (fun _ => .badMessage)
    let b ← (narrow 7 d2).mapError (fun _ => .badMessage)
    let c := st.extractLsb' 0 4
    match (st.extractLsb' 4 4).toNat with
    | 0xB => .ok (.txControlChange c a b)
    | 0x9 => .ok (.txNoteOn c a b)
    | 0x8 => .ok (.txNoteOff c a b)
    | 0xE => .ok (.txPitchBend c a b)
    | _ => .error .badMessage
  | _ => .error .wrongLength

/-- The operands of DAWSYNC after the operation number: track, bank, a byte whose bits 0, 1 and 2 say that value,
colour and name are present, and those present, the name last (log 2). -/
def decodeDawsync : List Byte → Except Reject Instr
  | track :: bank :: mask :: args =>
    match mask.toNat, args with
    | 0, [] => .ok (.dawsync track bank none none none)
    | 1, [v] => .ok (.dawsync track bank (some v) none none)
    | 2, [c1, c0] => .ok (.dawsync track bank none (some (be16 c1 c0)) none)
    | 3, [v, c1, c0] => .ok (.dawsync track bank (some v) (some (be16 c1 c0)) none)
    | 4, name => named name (.dawsync track bank none none (some name))
    | 5, v :: name => named name (.dawsync track bank (some v) none (some name))
    | 6, c1 :: c0 :: name => named name (.dawsync track bank none (some (be16 c1 c0)) (some name))
    | 7, v :: c1 :: c0 :: name => named name (.dawsync track bank (some v) (some (be16 c1 c0)) (some name))
    | _, _ => .error .badOperand
  | _ => .error .wrongLength
where
  named (name : List Byte) (i : Instr) : Except Reject Instr :=
    if name.length ≤ Config.r9.nameRx then .ok i else .error .badOperand

/-- The control type of CFGWRITE: 0 CC, 1 Note, 2 PitchBend (log 2). -/
def controlTypeOf (b : Byte) : Except Reject ControlType :=
  if b = 0 then .ok .cc else if b = 1 then .ok .note else if b = 2 then .ok .pitchBend else .error .badOperand

/-- The byte of a control type. -/
def byteOfControlType : ControlType → Byte
  | .cc => 0
  | .note => 1
  | .pitchBend => 2

/-- The field and value of CFGWRITE: the number of the field in the order of 10_state.md R28, then the value
(log 2). -/
def decodeEdit : List Byte → Except Reject CfgEdit
  | field :: args =>
    match field.toNat, args with
    | 0, [v] => .ok (.channel (midiChannelOf v))
    | 1, [v] => .ok (.controlNumber v.toNat)
    | 2, [v] => (controlTypeOf v).map .controlType
    | 3, [v] => (boolOf v).map .isPan
    | 4, [v] => .ok (.localValue v.toNat)
    | 5, [v] => .ok (.minValue v.toNat)
    | 6, [v] => .ok (.maxValue v.toNat)
    | 7, [v] => .ok (.dawValue v)
    | 8, [v] => (boolOf v).map .mute
    | 9, [v] => (boolOf v).map .solo
    | 10, [v1, v0] => .ok (.trackColor (be16 v1 v0))
    | 11, name => .ok (.trackName name)
    | _, _ => .error .badOperand
  | [] => .error .wrongLength

/-- The message of ENQ: its tag in the order of 10_state.md R31, then its fields (log 2). -/
def decodeMsg : List Byte → Except Reject Msg
  | tag :: args =>
    match tag.toNat, args with
    | 0, [c, k, v] => .ok (.controlChange (midiChannelOf c) k.toNat v.toNat)
    | 1, [c, n, v] => .ok (.noteOn (midiChannelOf c) n.toNat v.toNat)
    | 2, [c, n, v] => .ok (.noteOff (midiChannelOf c) n.toNat v.toNat)
    | 3, [c, v1, v0] => .ok (.pitchBend (midiChannelOf c) (be16 v1 v0).toInt)
    | 4, bytes => .ok (.sysEx bytes)
    | 5, [b] => .ok (.realtime b)
    | _, _ => .error .badOperand
  | [] => .error .wrongLength

/-- The operands of an operation of 30_encoding.md R120, by its number, in the order R120 lists them. -/
def decodeOperands (number : Nat) (args : List Byte) : Except Reject Instr :=
  match number, args with
  | 0x10, [ch, ph, n3, n2, n1, n0] => do
    let k ← channelOf ch
    let p ← narrow 2 ph
    return .qsample k p (be32 n3 n2 n1 n0)
  | 0x11, [h] => .ok (.flagset h.toNat)
  | 0x12, [h] => .ok (.flagclr h.toNat)
  | 0x13, [s1, s0, n3, n2, n1, n0] => .ok (.swpoll (be16 s1 s0) (be32 n3 n2 n1 n0))
  | 0x14, [s1, s0, n3, n2, n1, n0] => .ok (.btnpoll (be16 s1 s0) (be32 n3 n2 n1 n0))
  | 0x15, [ph, n3, n2, n1, n0] => do
    let p ← narrow 2 ph
    return .navenc p (be32 n3 n2 n1 n0)
  | 0x16, [lvl, n3, n2, n1, n0] => do
    let v ← boolOf lvl
    return .navbtn v (be32 n3 n2 n1 n0)
  | 0x17, [en] => (boolOf en).map .setaccel
  | 0x20, [index, delta, bank] => .ok (.applystep index delta bank)
  | 0x21, [sw, bank] => .ok (.applysw sw bank)
  | 0x22, args => decodeDawsync args
  | 0x23, [bank] => .ok (.setbank bank)
  | 0x24, [bank, track] => .ok (.resetslot bank track)
  | 0x25, [] => .ok .resetall
  | 0x26, [bank, track] => .ok (.slotread bank track)
  | 0x27, bank :: track :: args => (decodeEdit args).map (.cfgwrite bank track)
  | 0x28, [] => .ok .serialize
  | 0x29, blob => .ok (.deserialize blob)
  | 0x30, args => (decodeMsg args).map .enq
  | 0x31, [] => .ok .drain
  | 0x40, [header, status, data1, data2, n3, n2, n1, n0] =>
    .ok (.rxpkt header status data1 data2 (be32 n3 n2 n1 n0))
  | 0x41, bytes => .ok (.rxsysex bytes)
  | 0x42, [r, g, b] => .ok (.pack565 r g b)
  | 0x43, [c1, c0] => .ok (.unpack565 (be16 c1 c0))
  | 0x44, [b] => .ok (.mtcqf b)
  | 0x45, [status, n3, n2, n1, n0] => .ok (.rt status (be32 n3 n2 n1 n0))
  | 0x46, [i] => .ok (.statread i)
  | _, _ => .error .wrongLength

/-- The operation numbers of 30_encoding.md R120. -/
def isOperation (number : Nat) : Bool :=
  (decide (0x10 ≤ number) && decide (number ≤ 0x17)) || (decide (0x20 ≤ number) && decide (number ≤ 0x29)) ||
    decide (number = 0x30) || decide (number = 0x31) || (decide (0x40 ≤ number) && decide (number ≤ 0x46))

/-- The command port: an operation number and its operands (30_encoding.md R120). -/
def decodeOp : List Byte → Except Reject Instr
  | number :: args =>
    if isOperation number.toNat then decodeOperands number.toNat args else .error .unknownOperation
  | [] => .error .wrongLength

/-- The sixteen phase samples of ENCSERVICE, one a byte, and what follows them (log 5). -/
def decodePhases : List Byte → Except Reject (Vector (BitVec 2) Config.nMain × List Byte)
  | b0 :: b1 :: b2 :: b3 :: b4 :: b5 :: b6 :: b7 :: b8 :: b9 :: b10 :: b11 :: b12 :: b13 :: b14 :: b15 :: rest =>
    if ∀ b ∈ [b0, b1, b2, b3, b4, b5, b6, b7, b8, b9, b10, b11, b12, b13, b14, b15], b.toNat < 4 then
      .ok (#v[b0.setWidth 2, b1.setWidth 2, b2.setWidth 2, b3.setWidth 2, b4.setWidth 2, b5.setWidth 2,
        b6.setWidth 2, b7.setWidth 2, b8.setWidth 2, b9.setWidth 2, b10.setWidth 2, b11.setWidth 2,
        b12.setWidth 2, b13.setWidth 2, b14.setWidth 2, b15.setWidth 2], rest)
    else .error .badOperand
  | _ => .error .wrongLength

/-- The pseudo-operation port: a pseudo-operation of 30_encoding.md R121, numbered 0 to 7 in the table's order, and
its operands (log 5). -/
def decodePseudo : List Byte → Except Reject Instr
  | number :: args =>
    match number.toNat, args with
    | 0, h :: samples => do
      match ← decodePhases samples with
      | (ph, [n3, n2, n1, n0]) => return .encservice h.toNat ph (be32 n3 n2 n1 n0)
      | _ => .error .wrongLength
    | 1, [n3, n2, n1, n0] => .ok (.sysreset (be32 n3 n2 n1 n0))
    | 2, [s, n3, n2, n1, n0] =>
      if 0xF8 ≤ s.toNat then .ok (.rtbyte s (be32 n3 n2 n1 n0)) else .error .badOperand
    | 3, [p, n] => do
      let p ← narrow 3 p
      let n ← narrow 4 n
      return .qframe p n
    | 4, [hh, mm, ss, ff, r] => (narrow 2 r).map (.mtcfull hh mm ss ff)
    | 5, t :: track :: bank :: payload => .ok (.sx t track bank payload)
    | 6, [ch, a3, a2, a1, a0, d3, d2, d1, d0] =>
      (channelOf ch).map (fun k => .turncw k (be32 a3 a2 a1 a0) (be32 d3 d2 d1 d0))
    | 7, [ch, a3, a2, a1, a0, d3, d2, d1, d0] =>
      (channelOf ch).map (fun k => .turnccw k (be32 a3 a2 a1 a0) (be32 d3 d2 d1 d0))
    | _, _ => .error .unknownOperation
  | [] => .error .wrongLength

/-- The decoder: the instruction a transaction presents, or the name of what is wrong with it. -/
def decode (x : Xact) : Except Reject Instr :=
  match x.port, x.bytes with
  | .op, bytes => decodeOp bytes
  | .qcode, bytes => decodeQcode bytes
  | .pkt4, bytes => decodePacket bytes
  | .qf8, bytes => decodeQuarter bytes
  | .sysex, bytes => decodeFrame bytes
  | .cv3, bytes => decodeVoice bytes
  | .rt1, [b] => .ok (.txRealtime b)
  | .rt1, _ => .error .wrongLength
  | .sysexOut, bytes => .ok (.txSysEx bytes)
  | .xport8, [b] => .ok (.xport8 b)
  | .xport8, _ => .error .wrongLength
  | .rgb565, [c1, c0] =>
    let c := be16 c1 c0
    .ok (.rgb565 (c.extractLsb' 11 5) (c.extractLsb' 5 6) (c.extractLsb' 0 5))
  | .rgb565, _ => .error .wrongLength
  | .snap16, [s1, s0, sel, n3, n2, n1, n0] =>
    (boolOf sel).map (fun button => .snap16 button (be16 s1 s0) (be32 n3 n2 n1 n0))
  | .snap16, _ => .error .wrongLength
  | .pseudo, bytes => decodePseudo bytes

/-! ## The encoder -/

/-- The transaction of a quadrature code (30_encoding.md R91). -/
def encodeCode (code : Byte) (ch : Fin Config.nCh) (now : Time) : Xact :=
  ⟨.qcode, [code, BitVec.ofNat 8 ch.val] ++ bytes32 now⟩

/-- The transaction of a packet (30_encoding.md R93). -/
def encodePacket (header status data1 data2 : Byte) (now : Time) : Xact :=
  ⟨.pkt4, [header, status, data1, data2] ++ bytes32 now⟩

/-- The quarter-frame byte of a piece and a nibble (30_encoding.md R104). -/
def quarterByte (x : BitVec 1) (piece : BitVec 3) (n : BitVec 4) : Byte := x ++ piece ++ n

/-- The transaction of an operation of 30_encoding.md R120. -/
def encodeOp (number : Byte) (args : List Byte) : Xact := ⟨.op, number :: args⟩

/-- The transaction of a pseudo-operation (log 5). -/
def encodePseudo (number : Byte) (args : List Byte) : Xact := ⟨.pseudo, number :: args⟩

/-- The transaction of a channel-voice message (30_encoding.md R96, R97). -/
def encodeVoice (type c : BitVec 4) (a b : BitVec 7) : Xact :=
  ⟨.cv3, [type ++ c, a.setWidth 8, b.setWidth 8]⟩

/-- The message operand of ENQ (log 2). -/
def encodeMsg : Msg → List Byte
  | .controlChange c k v => [0, byteOfMidiChannel c, BitVec.ofNat 8 k, BitVec.ofNat 8 v]
  | .noteOn c n v => [1, byteOfMidiChannel c, BitVec.ofNat 8 n, BitVec.ofNat 8 v]
  | .noteOff c n v => [2, byteOfMidiChannel c, BitVec.ofNat 8 n, BitVec.ofNat 8 v]
  | .pitchBend c v => [3, byteOfMidiChannel c] ++ bytes16 (BitVec.ofInt 16 v)
  | .sysEx bytes => 4 :: bytes
  | .realtime b => [5, b]

/-- The field and value operand of CFGWRITE (log 2). -/
def encodeEdit : CfgEdit → List Byte
  | .channel v => [0, byteOfMidiChannel v]
  | .controlNumber v => [1, BitVec.ofNat 8 v]
  | .controlType v => [2, byteOfControlType v]
  | .isPan v => [3, byteOfBool v]
  | .localValue v => [4, BitVec.ofNat 8 v]
  | .minValue v => [5, BitVec.ofNat 8 v]
  | .maxValue v => [6, BitVec.ofNat 8 v]
  | .dawValue v => [7, v]
  | .mute v => [8, byteOfBool v]
  | .solo v => [9, byteOfBool v]
  | .trackColor v => 10 :: bytes16 v
  | .trackName v => 11 :: v

/-- The operands of DAWSYNC (log 2). -/
def encodeDawsync (track bank : Byte) (value : Option Byte) (color : Option (BitVec 16)) (name : Option (List Byte)) :
    List Byte :=
  let mask : Byte := (if value.isSome then 1 else 0) + (if color.isSome then 2 else 0) + (if name.isSome then 4 else 0)
  [track, bank, mask] ++ (value.toList ++ ((color.map bytes16).getD [] ++ name.getD []))

/-- The encoder: the words of an instruction, as a transaction on its port. -/
def encode : Instr → Xact
  | .qcode0000 ch now => encodeCode 0x0 ch now
  | .qcode0001 ch now => encodeCode 0x1 ch now
  | .qcode0010 ch now => encodeCode 0x2 ch now
  | .qcode0011 ch now => encodeCode 0x3 ch now
  | .qcode0100 ch now => encodeCode 0x4 ch now
  | .qcode0101 ch now => encodeCode 0x5 ch now
  | .qcode0110 ch now => encodeCode 0x6 ch now
  | .qcode0111 ch now => encodeCode 0x7 ch now
  | .qcode1000 ch now => encodeCode 0x8 ch now
  | .qcode1001 ch now => encodeCode 0x9 ch now
  | .qcode1010 ch now => encodeCode 0xA ch now
  | .qcode1011 ch now => encodeCode 0xB ch now
  | .qcode1100 ch now => encodeCode 0xC ch now
  | .qcode1101 ch now => encodeCode 0xD ch now
  | .qcode1110 ch now => encodeCode 0xE ch now
  | .qcode1111 ch now => encodeCode 0xF ch now
  | .pktCv8 hi status data1 data2 now => encodePacket (hi ++ 0x8#4) status data1 data2 now
  | .pktCv9 hi status data1 data2 now => encodePacket (hi ++ 0x9#4) status data1 data2 now
  | .pktCvA hi status data1 data2 now => encodePacket (hi ++ 0xA#4) status data1 data2 now
  | .pktCvB hi status data1 data2 now => encodePacket (hi ++ 0xB#4) status data1 data2 now
  | .pktCvC hi status data1 data2 now => encodePacket (hi ++ 0xC#4) status data1 data2 now
  | .pktCvD hi status data1 data2 now => encodePacket (hi ++ 0xD#4) status data1 data2 now
  | .pktCvE hi status data1 data2 now => encodePacket (hi ++ 0xE#4) status data1 data2 now
  | .pktMtc header qf data2 now => encodePacket header 0xF1 qf data2 now
  | .pktRtF8 hi data1 data2 now => encodePacket (hi ++ 0xF#4) 0xF8 data1 data2 now
  | .pktRtF9 hi data1 data2 now => encodePacket (hi ++ 0xF#4) 0xF9 data1 data2 now
  | .pktRtFA hi data1 data2 now => encodePacket (hi ++ 0xF#4) 0xFA data1 data2 now
  | .pktRtFB hi data1 data2 now => encodePacket (hi ++ 0xF#4) 0xFB data1 data2 now
  | .pktRtFC hi data1 data2 now => encodePacket (hi ++ 0xF#4) 0xFC data1 data2 now
  | .pktRtFD hi data1 data2 now => encodePacket (hi ++ 0xF#4) 0xFD data1 data2 now
  | .pktRtFE hi data1 data2 now => encodePacket (hi ++ 0xF#4) 0xFE data1 data2 now
  | .pktRtFF hi data1 data2 now => encodePacket (hi ++ 0xF#4) 0xFF data1 data2 now
  | .pktIgnored header status data1 data2 now => encodePacket header status data1 data2 now
  | .qfP0 x n => ⟨.qf8, [quarterByte x 0 n]⟩
  | .qfP1 x n => ⟨.qf8, [quarterByte x 1 n]⟩
  | .qfP2 x n => ⟨.qf8, [quarterByte x 2 n]⟩
  | .qfP3 x n => ⟨.qf8, [quarterByte x 3 n]⟩
  | .qfP4 x n => ⟨.qf8, [quarterByte x 4 n]⟩
  | .qfP5 x n => ⟨.qf8, [quarterByte x 5 n]⟩
  | .qfP6 x n => ⟨.qf8, [quarterByte x 6 n]⟩
  | .qfP7 x n => ⟨.qf8, [quarterByte x 7 n]⟩
  | .sxT01 track bank payload => ⟨.sysex, frameOf 0x01 track bank payload⟩
  | .sxT02 track bank payload => ⟨.sysex, frameOf 0x02 track bank payload⟩
  | .sxT03 track bank payload => ⟨.sysex, frameOf 0x03 track bank payload⟩
  | .sxT04 track bank payload => ⟨.sysex, frameOf 0x04 track bank payload⟩
  | .sxT05 track bank payload => ⟨.sysex, frameOf 0x05 track bank payload⟩
  | .sxT06 track bank payload => ⟨.sysex, frameOf 0x06 track bank payload⟩
  | .sxMalformed bytes => ⟨.sysex, bytes⟩
  | .txControlChange c k v => encodeVoice 0xB c k v
  | .txNoteOn c n v => encodeVoice 0x9 c n v
  | .txNoteOff c n v => encodeVoice 0x8 c n v
  | .txPitchBend c l m => encodeVoice 0xE c l m
  | .txRealtime b => ⟨.rt1, [b]⟩
  | .txSysEx bytes => ⟨.sysexOut, bytes⟩
  | .xport8 b => ⟨.xport8, [b]⟩
  | .rgb565 r g b => ⟨.rgb565, bytes16 (r ++ g ++ b)⟩
  | .snap16 button snap now => ⟨.snap16, bytes16 snap ++ (byteOfBool button :: bytes32 now)⟩
  | .qsample ch ph now => encodeOp 0x10 ([BitVec.ofNat 8 ch.val, ph.setWidth 8] ++ bytes32 now)
  | .flagset h => encodeOp 0x11 [BitVec.ofNat 8 h]
  | .flagclr h => encodeOp 0x12 [BitVec.ofNat 8 h]
  | .swpoll snap now => encodeOp 0x13 (bytes16 snap ++ bytes32 now)
  | .btnpoll snap now => encodeOp 0x14 (bytes16 snap ++ bytes32 now)
  | .navenc ph now => encodeOp 0x15 (ph.setWidth 8 :: bytes32 now)
  | .navbtn lvl now => encodeOp 0x16 (byteOfBool lvl :: bytes32 now)
  | .setaccel en => encodeOp 0x17 [byteOfBool en]
  | .applystep index delta bank => encodeOp 0x20 [index, delta, bank]
  | .applysw sw bank => encodeOp 0x21 [sw, bank]
  | .dawsync track bank value color name => encodeOp 0x22 (encodeDawsync track bank value color name)
  | .setbank bank => encodeOp 0x23 [bank]
  | .resetslot bank track => encodeOp 0x24 [bank, track]
  | .resetall => encodeOp 0x25 []
  | .slotread bank track => encodeOp 0x26 [bank, track]
  | .cfgwrite bank track edit => encodeOp 0x27 ([bank, track] ++ encodeEdit edit)
  | .serialize => encodeOp 0x28 []
  | .deserialize blob => encodeOp 0x29 blob
  | .enq msg => encodeOp 0x30 (encodeMsg msg)
  | .drain => encodeOp 0x31 []
  | .rxpkt header status data1 data2 now => encodeOp 0x40 ([header, status, data1, data2] ++ bytes32 now)
  | .rxsysex bytes => encodeOp 0x41 bytes
  | .pack565 r g b => encodeOp 0x42 [r, g, b]
  | .unpack565 c => encodeOp 0x43 (bytes16 c)
  | .mtcqf b => encodeOp 0x44 [b]
  | .rt status now => encodeOp 0x45 (status :: bytes32 now)
  | .statread i => encodeOp 0x46 [i]
  | .encservice h ph now =>
    encodePseudo 0 (BitVec.ofNat 8 h :: (ph.toList.map (fun p => p.setWidth 8) ++ bytes32 now))
  | .sysreset now => encodePseudo 1 (bytes32 now)
  | .rtbyte s now => encodePseudo 2 (s :: bytes32 now)
  | .qframe p n => encodePseudo 3 [p.setWidth 8, n.setWidth 8]
  | .mtcfull hh mm ss ff r => encodePseudo 4 [hh, mm, ss, ff, r.setWidth 8]
  | .sx t track bank payload => encodePseudo 5 ([t, track, bank] ++ payload)
  | .turncw ch t0 dt => encodePseudo 6 (BitVec.ofNat 8 ch.val :: (bytes32 t0 ++ bytes32 dt))
  | .turnccw ch t0 dt => encodePseudo 7 (BitVec.ofNat 8 ch.val :: (bytes32 t0 ++ bytes32 dt))

/-! ## One row of the opcode table -/

/-- How many operand bytes of zeros complete an operation whose number alone the table gives; the operands of
variable length are then empty (30_encoding.md R120, log 2). -/
def zeroOperands (number : Nat) : Nat :=
  match number with
  | 0x10 => 6
  | 0x11 => 1
  | 0x12 => 1
  | 0x13 => 6
  | 0x14 => 6
  | 0x15 => 5
  | 0x16 => 5
  | 0x17 => 1
  | 0x20 => 3
  | 0x21 => 2
  | 0x22 => 3
  | 0x23 => 1
  | 0x24 => 2
  | 0x26 => 2
  | 0x27 => 4
  | 0x30 => 4
  | 0x40 => 8
  | 0x42 => 3
  | 0x43 => 2
  | 0x44 => 1
  | 0x45 => 5
  | 0x46 => 1
  | _ => 0

/-- Byte `k` of a table word, byte 0 the least significant. -/
def tableByte (w k : Nat) : Byte := BitVec.ofNat 8 (w / 256 ^ k)

/-- The least payload of a frame of this type (30_encoding.md R102). -/
def zeroPayload (t : Nat) : Nat :=
  match t with
  | 1 => 3
  | 2 => 1
  | 4 => 1
  | 5 => 1
  | 6 => 4
  | _ => 0

/-- The transaction of a table word of `nbits` bits, every operand above it zero. The table's formats share words, so
the port is chosen by the width and, for one byte, in the order QCODE, operation number, quarter frame (log 4).
DESIGN CHOICE. Safe: nothing in the machine uses it but `decodeTableWord` and `State.withFetchWord`. -/
def tableXact (nbits w : Nat) : Xact :=
  if nbits ≤ 8 then
    if w < 16 then ⟨.qcode, [tableByte w 0, 0, 0, 0, 0, 0]⟩
    else if isOperation w then ⟨.op, tableByte w 0 :: List.replicate (zeroOperands w) 0⟩
    else ⟨.qf8, [tableByte w 0]⟩
  else if nbits ≤ 16 then ⟨.rgb565, [tableByte w 1, tableByte w 0]⟩
  else if nbits ≤ 24 then
    if tableByte w 2 = 0xF1 then ⟨.pkt4, [0, tableByte w 2, tableByte w 1, tableByte w 0, 0, 0, 0, 0]⟩
    else ⟨.cv3, [tableByte w 2, tableByte w 1, tableByte w 0]⟩
  else if nbits ≤ 32 then
    ⟨.pkt4, [tableByte w 3, tableByte w 2, tableByte w 1, tableByte w 0, 0, 0, 0, 0]⟩
  else
    ⟨.sysex, [tableByte w 4, tableByte w 3, tableByte w 2, tableByte w 1, tableByte w 0, 0, 0] ++
      List.replicate (zeroPayload (w % 256)) 0 ++ [Config.sysexEnd]⟩

/-- The instruction the decoder reads from a table word (the host's question about one row). -/
def decodeTableWord (nbits w : Nat) : Option Instr :=
  match decode (tableXact nbits w) with
  | .ok i => some i
  | .error _ => none

end Sys2Proof
end

