-- ==== Sys2Proof/Machine/State.lean ====
section
/-! DEFINITION. The state of the block as plain data: every record of 10_state.md, the model's own records (the
service in progress, the open parameters, the output streams, the environment's inputs), the faults and refusals, and
the machine right after reset. -/

namespace Sys2Proof.Machine

/-! ## What an operation puts out -/

/-- An event of the Input Decoder (10_state.md R58). -/
inductive Event where
  | encoderStep (index : Fin Config.nMain) (delta : Int)
  | switchChanged (index : Fin Config.nSw)
  | buttonChanged (index : Fin Config.nBtn)
  | navEncoderStep (delta : Int)
  | navButtonPressed
  deriving DecidableEq, Repr

/-- A notification to the display collaborator (10_state.md R54). -/
inductive Note where
  | dirty (track : Fin Config.nTrack)
  | vu (track : Fin Config.nTrack) (level : Byte)
  deriving DecidableEq, Repr

/-- The result an operation gives its caller (00_scope.md R13; log 22). -/
inductive Ret where
  /-- ENQ: ok is true, fail is false (42_outbound.md R201, R202). -/
  | enq (ok : Bool)
  /-- SLOTREAD: a copy of the slot, or nothing (41_bank_state.md R190). -/
  | slot (value : Option Slot)
  /-- PACK565 (43_inbound_sysex.md R260). -/
  | packed (c : BitVec 16)
  /-- UNPACK565, and the fields of a packed colour (43_inbound_sysex.md R261). -/
  | rgb (r g b : Byte)
  /-- STATREAD: the register's value, or nothing (44_mtc_transport.md R292). -/
  | status (value : Option Nat)
  /-- SERIALIZE (41_bank_state.md R196). -/
  | blob (bytes : List Byte)
  deriving DecidableEq, Repr

/-! ## The records of 10_state.md -/

/-- QuadratureChannel (10_state.md R21). -/
structure QChan where
  phase : BitVec 2
  acc : BitVec Config.accW
  tLast : Time
  deriving DecidableEq, Repr

/-- The debounce record of the switch or of the button port (10_state.md R24, R25). -/
structure Debounce where
  snap : BitVec 16
  tPoll : Time
  deriving DecidableEq, Repr

/-- The navigation button's confirmation state (10_state.md R27). Level 1 is released. -/
structure NavButton where
  raw : Bool
  stable : Bool
  tChange : Time
  deriving DecidableEq, Repr

/-- OutboundQueue (10_state.md R33): a ring of Q_CAP cells, the index of the oldest entry, and the number held. -/
structure OutQueue where
  mem : Vector Msg Config.qCap
  head : Fin Config.qCap
  count : Fin (Config.qCap + 1)
  deriving DecidableEq, Repr

/-- MtcTimebase (10_state.md R36). -/
structure Mtc where
  hours : Byte
  minutes : Byte
  seconds : Byte
  frames : Byte
  running : Bool
  valid : Bool
  deriving DecidableEq, Repr

/-- TransportState (10_state.md R37). -/
structure Transport where
  playing : Bool
  recording : Bool
  paused : Bool
  deriving DecidableEq, Repr

/-! ## The model's own records -/

/-- Which step of an ENCSERVICE comes next (40_input_decoder.md R146). -/
inductive Stage where
  /-- Step 2: read the samples, decode them and apply the steps. -/
  | sample
  /-- Step 3: clear the flag. -/
  | clear
  deriving DecidableEq, Repr

/-- An ENCSERVICE whose step 1 found its flag set, between its steps (40_input_decoder.md R146; log 6). -/
structure Service where
  half : Nat
  ph : Vector (BitVec 2) Config.nMain
  now : Time
  stage : Stage
  deriving DecidableEq, Repr

/-- A data-ready edge to come: its line and how many steps of the polling loop pass before it (10_state.md R51;
log 6). -/
structure Edge where
  after : Nat
  line : Nat
  deriving DecidableEq, Repr

/-- The output streams, each growing at its end (00_scope.md R13, R16; log 8). No operation reads them. -/
structure Outputs where
  /-- The event port (10_state.md R58). -/
  events : List Event
  /-- The outbound wire (10_state.md R53). -/
  wire : List Byte
  /-- The display port (10_state.md R54). -/
  notes : List Note
  /-- The results returned to callers (00_scope.md R13). -/
  rets : List Ret
  deriving DecidableEq, Repr

/-- What the environment presents (00_scope.md R15; log 1, log 6, log 16, log 17). -/
structure Inputs where
  /-- The operations presented, oldest first (10_state.md R40). -/
  inbox : List Xact
  /-- The data-ready edges to come, soonest first (10_state.md R51). -/
  irq : List Edge
  /-- For how many further steps the reset input is asserted (10_state.md R59). -/
  rst : Nat
  /-- The health input; no operation reads it (10_state.md R56, 60_exceptions.md R305). -/
  busOk : Bool
  deriving DecidableEq, Repr

/-! ## Errors, faults and refusals -/

/-- The five error conditions (60_exceptions.md R300, R306). None is a fault: each is counted and absorbed. -/
inductive ErrorKind where
  | queueFull
  | malformedPacket
  | undersizedSysEx
  | mtcInvalid
  | busCommunicationFailure
  deriving DecidableEq, Repr

/-- The faults of the block: none. The block has no trap and no hang (00_scope.md R17, 60_exceptions.md R300), so no
step can answer a fault. Safe. -/
inductive Fault where
  deriving DecidableEq, Repr

/-- Why a step refuses. Every constructor but `notModelled` is a refusal the spec itself asks of a model. -/
inductive Refusal where
  /-- An arm of `exec` without a meaning. No arm raises it in this model. Safe. -/
  | notModelled (mnemonic : String)
  /-- ENQ: the message has a field outside the ranges of 10_state.md R31 (42_outbound.md R203; log 13). Safe. -/
  | illFormedMessage
  /-- CFGWRITE: the value is outside the field's range, or the slot would break its invariant
  (41_bank_state.md R192; log 12). Safe. -/
  | editBreaksSlot
  /-- FLAGSET, FLAGCLR, ENCSERVICE, an edge: there is no flag of this number (93_implementation_defined.md U21;
  log 14). Safe. -/
  | noSuchFlag (h : Nat)
  /-- RT: the status is below F8 (93_implementation_defined.md U21; log 14). Safe. -/
  | notRealtime (status : Byte)
  /-- `step`: the transaction presented is none its port can carry (93_implementation_defined.md U21; log 14). Safe. -/
  | undecodable (why : Reject)
  deriving DecidableEq, Repr

/-! ## The state -/

/-- The state of the block (10_state.md R20) and the model's own fields `svc`, `cfg`, `out` and `inp`. -/
structure State where
  /-- `Q[0..16]` (R21); channel 16 is the navigation encoder. -/
  q : Vector QChan Config.nCh
  /-- The acceleration enable (R22). -/
  accelEn : Bool
  /-- `READY[0..N_HALF-1]` (R23); N_HALF is the length. -/
  ready : List Bool
  /-- The switch port's record (R24). -/
  sw : Debounce
  /-- The button port's record (R25). -/
  btn : Debounce
  /-- `NAV.tPoll` (R26). -/
  navPoll : Time
  /-- The navigation button's record (R27). -/
  nb : NavButton
  /-- `SLOT[0..3][0..15]` (R28, R30). -/
  slots : SlotTable
  /-- `currentBank` (R30). -/
  currentBank : Fin Config.nBank
  /-- The outbound queue (R33). -/
  oq : OutQueue
  /-- `errorCount` (R34). -/
  errorCount : BitVec Config.cntW
  /-- `sysexCount` (R35). -/
  sysexCount : BitVec Config.cntW
  /-- The MTC timebase (R36). -/
  mtc : Mtc
  /-- The transport state (R37). -/
  xp : Transport
  /-- `lastSense` (R38). -/
  lastSense : Time
  /-- The model's own: the ENCSERVICE in progress (log 6). -/
  svc : Option Service
  /-- The model's own: the parameters of 00_scope.md R9 (log 9). No operation writes them. -/
  cfg : Config.Params
  /-- The model's own: the output streams (log 8). -/
  out : Outputs
  /-- The model's own: what the environment presents (log 1). -/
  inp : Inputs
  deriving DecidableEq, Repr

/-- What one step answers. -/
abbrev Result := Host.Outcome State Fault Refusal

/-- Every field of 10_state.md at its value of R43, under the parameters `cfg` and with `halves` data-ready flags. The
queue's cells, unspecified and unobservable in R43, hold Realtime 00: DESIGN CHOICE (log 10), unsafe for a claim about
an unoccupied cell. -/
def State.initial (cfg : Config.Params) (halves : Nat) (out : Outputs) (inp : Inputs) : State :=
  { q := Vector.replicate Config.nCh { phase := 0, acc := 0, tLast := 0 }
    accelEn := cfg.accelDef
    ready := List.replicate halves false
    sw := { snap := 0xFFFF, tPoll := 0 }
    btn := { snap := 0xFFFF, tPoll := 0 }
    navPoll := 0
    nb := { raw := true, stable := true, tChange := 0 }
    slots := cfg.defaults
    currentBank := 0
    oq := { mem := Vector.replicate Config.qCap (.realtime 0), head := 0, count := 0 }
    errorCount := 0
    sysexCount := 0
    mtc := { hours := 0, minutes := 0, seconds := 0, frames := 0, running := false, valid := false }
    xp := { playing := false, recording := false, paused := false }
    lastSense := 0
    svc := none
    cfg := cfg
    out := out
    inp := inp }

/-- Nothing put out yet. -/
def Outputs.empty : Outputs := { events := [], wire := [], notes := [], rets := [] }

/-- Nothing presented: no operation, no edge, the reset input released. `busOk` is true: DESIGN CHOICE (log 17),
unsafe for a claim about the pin, which nothing reads. -/
def Inputs.idle : Inputs := { inbox := [], irq := [], rst := 0, busOk := true }

/-- The machine right after reset (10_state.md R43, 70_reset_and_hazards.md R340, R341), with the open parameters at
the fixture of 95_test_vectors.md. DESIGN CHOICE (log 9), unsafe for a claim that leans on a parameter. -/
def State.reset : State :=
  State.initial Config.fixture Config.fixtureHalves Outputs.empty Inputs.idle

end Sys2Proof.Machine
end

