-- ==== Sys2Proof/Machine/Operands.lean ====
section
/-! DEFINITION. The operand forms and value computations of the block, without state: elapsed time, the quadrature
direction, multiplier and threshold, the clamp, the pitch-bend map, colours, the serialiser, the fields of the
quarter-frame byte, the well-formed message, and the check of a configuration edit. -/

namespace Sys2Proof.Machine

/-- `tdiff(a, b) = (a − b) mod 2^32`, the elapsed time from `b` to `a` (00_scope.md R11, 10_state.md R57; log 18). -/
def tdiff (a b : Time) : Nat := (a - b).toNat

/-- `clamp(v, lo, hi)` (00_scope.md R11). -/
def clamp (v lo hi : Int) : Int := if v < lo then lo else if v > hi then hi else v

/-! ## The quadrature decoder -/

/-- The 4-bit code `(lastPhase << 2) | newPhase` (30_encoding.md R91). -/
def codeOf (last new : BitVec 2) : BitVec 4 := last ++ new

/-- The new phase of a code, bits 1 to 0 (30_encoding.md R91). -/
def newPhase (code : BitVec 4) : BitVec 2 := code.extractLsb' 0 2

/-- The direction table DIR (30_encoding.md R92). -/
def dirOf (code : BitVec 4) : Int :=
  match code.toNat with
  | 0b0001 => -1
  | 0b0010 => 1
  | 0b0100 => 1
  | 0b0111 => -1
  | 0b1000 => -1
  | 0b1011 => 1
  | 0b1101 => 1
  | 0b1110 => -1
  | _ => 0

/-- The multiplier of a valid transition `dt` after the previous one (40_input_decoder.md R134). -/
def multiplier (p : Config.Valued) (accelEn : Bool) (dt : Nat) : Nat :=
  if accelEn ∧ dt < p.tFast then p.mFast
  else if accelEn ∧ dt < p.tMed then p.mMed
  else p.mSlow

/-- The emit threshold `floor(STEP_DIV / multiplier)` (40_input_decoder.md R136). -/
def threshold (p : Config.Valued) (mult : Nat) : Nat := p.stepDiv / mult

/-- One quadrature sample on one channel, given its code: the channel's record after it, and the step it emits
(40_input_decoder.md R131 to R136). -/
def quadNext (p : Config.Valued) (accelEn : Bool) (code : BitVec 4) (now : Time) (c : QChan) : QChan × Option Int :=
  let dir := dirOf code
  if dir = 0 then ({ c with phase := newPhase code }, none)
  else
    let mult := multiplier p accelEn (tdiff now c.tLast)
    let a := c.acc.toInt + dir
    if threshold p mult ≤ a.natAbs then
      ({ phase := newPhase code, acc := 0, tLast := now }, some (a.sign * mult))
    else
      ({ phase := newPhase code, acc := BitVec.ofInt Config.accW a, tLast := now }, none)

/-- The name of a step event (40_input_decoder.md R138). -/
def stepEvent (ch : Fin Config.nCh) (delta : Int) : Event :=
  if h : ch.val < Config.nMain then .encoderStep ⟨ch.val, h⟩ delta else .navEncoderStep delta

/-- The main encoders, ascending (40_input_decoder.md R146). -/
def mainIndices : List (Fin Config.nMain) := List.finRange Config.nMain

/-- The switches, ascending (40_input_decoder.md R150). -/
def switchIndices : List (Fin Config.nSw) := List.finRange Config.nSw

/-- The buttons, ascending (40_input_decoder.md R153). -/
def buttonIndices : List (Fin Config.nBtn) := List.finRange Config.nBtn

/-- The channel of a main encoder. -/
def mainChannel (i : Fin Config.nMain) : Fin Config.nCh := ⟨i.val, Nat.lt_succ_of_lt i.isLt⟩

/-- The channel of the navigation encoder (10_state.md R21). -/
def navChannel : Fin Config.nCh := 16

/-! ## Messages -/

/-- A channel in 1 to 16 (10_state.md R31). -/
def channelInRange (c : Nat) : Bool := decide (1 ≤ c) && decide (c ≤ 16)

/-- The well-formed messages (10_state.md R32), `sysexMax` being SYSEX_MAX. -/
def msgWf (sysexMax : Nat) : Msg → Bool
  | .controlChange c k v => channelInRange c && decide (k ≤ 127) && decide (v ≤ 127)
  | .noteOn c n v => channelInRange c && decide (n ≤ 127) && decide (v ≤ 127)
  | .noteOff c n v => channelInRange c && decide (n ≤ 127) && decide (v ≤ 127)
  | .pitchBend c v => channelInRange c && decide (-8192 ≤ v) && decide (v ≤ 8191)
  | .sysEx bytes => decide (bytes.length ≤ sysexMax)
  | .realtime _ => true

/-- The status byte of a channel-voice message, `(type << 4) | (channel − 1)` (30_encoding.md R98). -/
def statusByte (type channel : Nat) : Byte := BitVec.ofNat 8 (type * 16 + (channel - 1))

/-- The unsigned 14-bit value of a pitch bend, `value14 + 8192` (30_encoding.md R99). -/
def bendWire (value14 : Int) : BitVec 14 := BitVec.ofInt 14 (value14 + 8192)

/-- The bytes of one message on the wire (42_outbound.md R210 to R216). The type nibbles are those of
30_encoding.md R97, which the spec marks as general knowledge (log 21). -/
def serialise : Msg → List Byte
  | .controlChange c k v => [statusByte 0xB c, BitVec.ofNat 8 k, BitVec.ofNat 8 v]
  | .noteOn c n v => [statusByte 0x9 c, BitVec.ofNat 8 n, BitVec.ofNat 8 v]
  | .noteOff c n v => [statusByte 0x8 c, BitVec.ofNat 8 n, BitVec.ofNat 8 v]
  | .pitchBend c v =>
    [statusByte 0xE c, ((bendWire v).extractLsb' 0 7).setWidth 8, ((bendWire v).extractLsb' 7 7).setWidth 8]
  | .sysEx bytes => bytes
  | .realtime b => [b]

/-- The pitch-bend map `129 × localValue − 8192` (41_bank_state.md R175). -/
def bendOf (localValue : BitVec 7) : Int := 129 * (localValue.toNat : Int) - 8192

/-- The message APPLYSTEP builds from the slot after its step (41_bank_state.md R172 to R175). -/
def stepMessage (noteOnVel : BitVec 7) (x : Slot) (delta : Int) : Msg :=
  match x.controlType with
  | .cc => .controlChange x.channelNo x.controlNumber.toNat x.localValue.toNat
  | .note =>
    if delta > 0 then .noteOn x.channelNo x.controlNumber.toNat noteOnVel.toNat
    else .noteOff x.channelNo x.controlNumber.toNat 0
  | .pitchBend => .pitchBend x.channelNo (bendOf x.localValue)

/-- The data byte of a switch message: 127 for on, 0 for off (30_encoding.md R108). -/
def onOff (v : Bool) : Nat := if v then 127 else 0

/-! ## Slots -/

/-- The local value after a step or a mirrored value: the sum in Z, clamped to the slot's bounds
(41_bank_state.md R172, R182). -/
def clampToSlot (x : Slot) (v : Int) : BitVec 7 :=
  BitVec.ofInt 7 (clamp v x.minValue.toNat x.maxValue.toNat)

/-- The slot invariant of 10_state.md R29 with the name length of R28, at most `nameVis` characters, as a test. -/
def slotOk (nameVis : Nat) (x : Slot) : Bool :=
  decide (x.minValue.toNat ≤ x.localValue.toNat) && decide (x.localValue.toNat ≤ x.maxValue.toNat) &&
    decide (x.trackName.length ≤ nameVis)

/-- A slot with one field replaced, or nothing when the value is outside the field's range (10_state.md R28,
41_bank_state.md R191, R192); a name has at most `nameVis` characters. -/
def editSlot (nameVis : Nat) (x : Slot) : CfgEdit → Option Slot
  | .channel v => if h : 1 ≤ v ∧ v ≤ 16 then some { x with channel := ⟨v - 1, by omega⟩ } else none
  | .controlNumber v => if v ≤ 127 then some { x with controlNumber := BitVec.ofNat 7 v } else none
  | .controlType v => some { x with controlType := v }
  | .isPan v => some { x with isPan := v }
  | .localValue v => if v ≤ 127 then some { x with localValue := BitVec.ofNat 7 v } else none
  | .minValue v => if v ≤ 127 then some { x with minValue := BitVec.ofNat 7 v } else none
  | .maxValue v => if v ≤ 127 then some { x with maxValue := BitVec.ofNat 7 v } else none
  | .dawValue v => some { x with dawValue := v }
  | .mute v => some { x with mute := v }
  | .solo v => some { x with solo := v }
  | .trackColor v => some { x with trackColor := v }
  | .trackName v => if v.length ≤ nameVis then some { x with trackName := v } else none

/-- A restored slot held to what 10_state.md R28 and R29 demand of every slot: the bounds in order, the local value
between them, at most `nameVis` characters. It changes no slot that meets them, so the table of a legal state
is restored as it was (log 11). -/
def legalSlot (nameVis : Nat) (x : Slot) : Slot :=
  let hi := if x.minValue.toNat ≤ x.maxValue.toNat then x.maxValue else x.minValue
  { x with
    maxValue := hi
    localValue := BitVec.ofInt 7 (clamp x.localValue.toNat x.minValue.toNat hi.toNat)
    trackName := x.trackName.take nameVis }

/-- Every slot of a restored table made legal. -/
def legalTable (nameVis : Nat) (x : SlotTable) : SlotTable := x.map (fun bank => bank.map (legalSlot nameVis))

/-! ## Colours -/

/-- PACK565: `((R & 0xF8)<<8) | ((G & 0xFC)<<3) | (B>>3)` (30_encoding.md R106, 43_inbound_sysex.md R260). -/
def pack565 (r g b : Byte) : BitVec 16 :=
  (((r &&& 0xF8).setWidth 16) <<< 8) ||| (((g &&& 0xFC).setWidth 16) <<< 3) ||| ((b >>> 3).setWidth 16)

/-- UNPACK565, red: `(c >> 8) & 0xF8` (43_inbound_sysex.md R261). -/
def red565 (c : BitVec 16) : Byte := ((c >>> 8).setWidth 8) &&& 0xF8

/-- UNPACK565, green: `(c >> 3) & 0xFC` (43_inbound_sysex.md R261). -/
def green565 (c : BitVec 16) : Byte := ((c >>> 3).setWidth 8) &&& 0xFC

/-- UNPACK565, blue: `(c << 3) & 0xF8` (43_inbound_sysex.md R261). -/
def blue565 (c : BitVec 16) : Byte := ((c <<< 3).setWidth 8) &&& 0xF8

/-! ## The inbound side -/

/-- The piece type of a quarter-frame byte, bits 6 to 4 (44_mtc_transport.md R272). -/
def pieceOf (b : Byte) : BitVec 3 := b.extractLsb' 4 3

/-- The nibble of a quarter-frame byte, bits 3 to 0 (44_mtc_transport.md R272). -/
def nibbleOf (b : Byte) : BitVec 4 := b.extractLsb' 0 4

/-- `(field & 0xF0) | n` (44_mtc_transport.md R271). -/
def setLowNibble (field : Byte) (n : BitVec 4) : Byte := (field &&& 0xF0) ||| n.setWidth 8

/-- `(field & 0x0F) | (n << 4)` (44_mtc_transport.md R271). -/
def setHighNibble (field : Byte) (n : BitVec 4) : Byte := (field &&& 0x0F) ||| ((n.setWidth 8) <<< 4)

/-- MINLEN: the minimum total length of a frame of each type (30_encoding.md R102, 43_inbound_sysex.md R240). -/
def minLen (t : Nat) : Nat :=
  match t with
  | 1 => 11
  | 2 => 9
  | 3 => 8
  | 4 => 9
  | 5 => 9
  | _ => 12

/-- Byte `k` of a payload that its length check has shown to be there. -/
def payloadByte (payload : List Byte) (k : Nat) : Byte := payload.getD k 0

end Sys2Proof.Machine
end

