-- ==== Sys2Proof/Machine/Flags.lean ====
section
/-! DEFINITION. The one-bit statuses of the block (10_state.md R41) and the tests that set them: press detection on a
snapshot, the running and valid flags of MTC, the transport flags, the data-ready flags, and the status registers that
show them. -/

namespace Sys2Proof.Machine

/-- Bit `i` changed and is now low: a press (40_input_decoder.md R150, R152). -/
def pressed (old new : BitVec 16) (i : Nat) : Bool := (new ^^^ old).getLsbD i && !new.getLsbD i

/-- `running` after piece 7: bits 2 and 1 of the nibble are not both clear (44_mtc_transport.md R278). -/
def runningOf (n : BitVec 4) : Bool := decide (n &&& 0b0110 ≠ 0)

/-- The validity test of an assembled time (44_mtc_transport.md R279). -/
def timeValid (p : Config.Valued) (m : Mtc) : Bool :=
  decide (m.frames.toNat < p.mtcF) && decide (m.seconds.toNat < p.mtcS) &&
    decide (m.minutes.toNat < p.mtcM) && decide (m.hours.toNat < p.mtcH)

/-- The timebase after one quarter frame (44_mtc_transport.md R271, R273 to R281). Of piece 7 only `n[0]` goes into
`hours[7:4]` (R277). -/
def mtcNext (p : Config.Valued) (piece : BitVec 3) (n : BitVec 4) (m : Mtc) : Mtc :=
  match piece.toNat with
  | 0 => { m with frames := setLowNibble m.frames n }
  | 1 => { m with frames := setHighNibble m.frames n }
  | 2 => { m with seconds := setLowNibble m.seconds n }
  | 3 => { m with seconds := setHighNibble m.seconds n }
  | 4 => { m with minutes := setLowNibble m.minutes n }
  | 5 => { m with minutes := setHighNibble m.minutes n }
  | 6 => { m with hours := setLowNibble m.hours n }
  | _ =>
    let m' := { m with hours := setHighNibble m.hours (n &&& 0b0001), running := runningOf n }
    { m' with valid := timeValid p m' }

/-- The cleared timebase (44_mtc_transport.md R289). -/
def mtcClear : Mtc := { hours := 0, minutes := 0, seconds := 0, frames := 0, running := false, valid := false }

/-- The cleared transport state (44_mtc_transport.md R289). -/
def transportClear : Transport := { playing := false, recording := false, paused := false }

/-- The three transport flags of a transport state byte (30_encoding.md R107, 43_inbound_sysex.md R254). -/
def transportOf (p : Config.Params) (b : Byte) : Transport :=
  { playing := b.getLsbD p.xportPlay.val, recording := b.getLsbD p.xportRec.val,
    paused := b.getLsbD p.xportPause.val }

/-- One bit as a number. -/
def bit (v : Bool) : Nat := if v then 1 else 0

/-- The flags as a bit vector, flag `h` at bit `h` (10_state.md R39, register 9). -/
def flagsValue : List Bool → Nat
  | [] => 0
  | v :: rest => bit v + 2 * flagsValue rest

/-- The status registers 0 to 9 (10_state.md R39); above 9 there is none (44_mtc_transport.md R292). -/
def statusRegister (s : State) (i : Nat) : Option Nat :=
  match i with
  | 0 => some s.errorCount.toNat
  | 1 => some s.sysexCount.toNat
  | 2 => some s.oq.count.val
  | 3 => some (be32 s.mtc.hours s.mtc.minutes s.mtc.seconds s.mtc.frames).toNat
  | 4 => some (2 * bit s.mtc.valid + bit s.mtc.running)
  | 5 => some (4 * bit s.xp.paused + 2 * bit s.xp.recording + bit s.xp.playing)
  | 6 => some s.lastSense.toNat
  | 7 => some s.currentBank.val
  | 8 => some (bit s.accelEn)
  | 9 => some (flagsValue s.ready)
  | _ => none

end Sys2Proof.Machine
end

