-- ==== Sys2Proof/Machine/Ops.lean ====
section
/-! DEFINITION. The named operations over the state that the meanings share: reads and writes of channels and slots,
the output streams, absorbing an error (the block's whole exception mechanism), the data-ready flags, the outbound ring, the
bank-state operations that other units call, and the hardware reset. -/

namespace Sys2Proof.Machine

/-! ## Channels and slots -/

/-- `Q[ch]` (10_state.md R21). -/
def State.chan (s : State) (ch : Fin Config.nCh) : QChan := s.q[ch.val]

/-- `Q[ch] <- c` (10_state.md R21). -/
def State.setChan (s : State) (ch : Fin Config.nCh) (c : QChan) : State := { s with q := s.q.set ch.val c }

/-- `SLOT[b][t]` (20_memory.md R61). -/
def State.slot (s : State) (b : Fin Config.nBank) (t : Fin Config.nTrack) : Slot := s.slots.at b t

/-- `SLOT[b][t] <- x` (20_memory.md R61). -/
def State.setSlot (s : State) (b : Fin Config.nBank) (t : Fin Config.nTrack) (x : Slot) : State := { s with slots := s.slots.put b t x }

/-! ## Outputs (00_scope.md R13) -/

/-- `emit E`. -/
def State.emit (s : State) (e : Event) : State := { s with out := { s.out with events := s.out.events ++ [e] } }

/-- `tx(b)` for each byte in order. -/
def State.tx (s : State) (bytes : List Byte) : State := { s with out := { s.out with wire := s.out.wire ++ bytes } }

/-- `notify n`. -/
def State.notify (s : State) (n : Note) : State := { s with out := { s.out with notes := s.out.notes ++ [n] } }

/-- `return v` (log 22). -/
def State.ret (s : State) (v : Ret) : State := { s with out := { s.out with rets := s.out.rets ++ [v] } }

/-! ## Taking an exception: errors are counted and absorbed, an interrupt sets a flag -/

/-- `raise <Error>` (00_scope.md R13, 60_exceptions.md R300 to R305, R321): the counter update of the condition. It
saves no state, changes no mode and transfers no control; there is no return from it (R325). UndersizedSysEx leaves
`errorCount` alone, since the frame has been counted in `sysexCount` (R303); BusCommunicationFailure is raised by no
operation and touches nothing (R305). -/
def raiseError (e : ErrorKind) (s : State) : State :=
  match e with
  | .queueFull => { s with errorCount := s.errorCount + 1 }
  | .malformedPacket => { s with errorCount := s.errorCount + 1 }
  | .mtcInvalid => { s with errorCount := s.errorCount + 1 }
  | .undersizedSysEx => s
  | .busCommunicationFailure => s

/-- Interrupt entry, the data-ready interrupt's whole effect: `READY[h] <- 1` (60_exceptions.md R320,
40_input_decoder.md R144). -/
def setFlag (h : Nat) (s : State) : State := { s with ready := s.ready.set h true }

/-- `READY[h] <- 0` (40_input_decoder.md R145). -/
def clearFlag (h : Nat) (s : State) : State := { s with ready := s.ready.set h false }

/-- The value of `READY[h]` (10_state.md R23). -/
def flagIsSet (h : Nat) (s : State) : Bool := s.ready.getD h false

/-! ## The outbound ring (20_memory.md R62, 10_state.md R33) -/

/-- `MemRead(i, 1)` and the cell index `(head + k) mod 32`. -/
def OutQueue.cell (q : OutQueue) (k : Nat) : Msg := q.mem[(q.head.val + k) % Config.qCap]'(Nat.mod_lt _ (by decide))

/-- `MemWrite((head + count) mod 32, 1, m)` and `count + 1`, for a ring that is not full. -/
def OutQueue.push (q : OutQueue) (m : Msg) : OutQueue :=
  { q with
    mem := q.mem.set ((q.head.val + q.count.val) % Config.qCap) m (Nat.mod_lt _ (by decide))
    count := q.count + 1 }

/-- `head + 1 mod 32` and `count − 1`, for a ring that is not empty. The cell so vacated keeps the message drained: what a
vacated cell holds is unspecified and no rule reads it (20_memory.md R62, 93_implementation_defined.md U12). DESIGN CHOICE
(log 10), unsafe for a claim about an unoccupied cell. -/
def OutQueue.pop (q : OutQueue) : OutQueue := { q with head := q.head + 1, count := q.count - 1 }

/-- The entries held, oldest first (10_state.md R33). -/
def OutQueue.contents (q : OutQueue) : List Msg := (List.range q.count.val).map q.cell

/-- The ring holds Q_CAP messages (42_outbound.md R201), or has no cell left where a configuration's `qCap` exceeds its
cells. -/
def OutQueue.full (qCap : Nat) (q : OutQueue) : Bool := decide (min qCap Config.qCap ≤ q.count.val)

/-- ENQ of a well-formed message, but for its result (42_outbound.md R201, R202). -/
def enqueue (m : Msg) (s : State) : State :=
  if s.oq.full s.cfg.valued.qCap then raiseError .queueFull s else { s with oq := s.oq.push m }

/-- DRAIN (42_outbound.md R205 to R207). -/
def drain (s : State) : State :=
  if s.oq.count.val = 0 then s
  else { s with oq := s.oq.pop }.tx (serialise (s.oq.cell 0))

/-! ## The bank-state operations that other units call -/

/-- APPLYSTEP on a slot in range (41_bank_state.md R172). -/
def applyStepAt (b : Fin Config.nBank) (t : Fin Config.nTrack) (delta : Int) (s : State) : State :=
  let x := s.slot b t
  let x' := { x with localValue := clampToSlot x (x.localValue.toNat + delta) }
  enqueue (stepMessage s.cfg.noteOnVel x' delta) (s.setSlot b t x')

/-- APPLYSTEP (41_bank_state.md R172): nothing at all outside `index` 0 to 15 and `bank` 0 to 3. -/
def applyStep (index : Nat) (delta : Int) (bank : Nat) (s : State) : State :=
  if h : index < Config.nTrack ∧ bank < Config.nBank then applyStepAt ⟨bank, h.2⟩ ⟨index, h.1⟩ delta s else s

/-- APPLYSW of switches 0 to 7: the mute toggle of track `t` (41_bank_state.md R178). -/
def toggleMute (b : Fin Config.nBank) (t : Fin Config.nTrack) (s : State) : State :=
  let x := s.slot b t
  enqueue (.controlChange x.channelNo (120 + t.val) (onOff (!x.mute))) (s.setSlot b t { x with mute := !x.mute })

/-- APPLYSW of switches 8 to 15: the solo toggle of track `t` (41_bank_state.md R178). -/
def toggleSolo (b : Fin Config.nBank) (t : Fin Config.nTrack) (s : State) : State :=
  let x := s.slot b t
  enqueue (.controlChange x.channelNo (110 + t.val) (onOff (!x.solo))) (s.setSlot b t { x with solo := !x.solo })

/-- APPLYSW (41_bank_state.md R178): nothing at all outside `sw` 0 to 15 and `bank` 0 to 3. -/
def applySw (sw bank : Nat) (s : State) : State :=
  if h : sw < Config.nSw ∧ bank < Config.nBank then
    if sw < 8 then toggleMute ⟨bank, h.2⟩ ⟨sw, h.1⟩ s
    else toggleSolo ⟨bank, h.2⟩ ⟨sw - 8, Nat.lt_of_le_of_lt (Nat.sub_le sw 8) h.1⟩ s
  else s

/-- The slot after the part of DAWSYNC that acts in any bank (41_bank_state.md R180, R181, R184): of a name
the first `nameVis` characters. -/
def syncSlot (nameVis : Nat) (x : Slot) (value : Option Byte) (color : Option (BitVec 16)) (name : Option (List Byte)) : Slot :=
  { x with
    dawValue := value.getD x.dawValue
    trackColor := color.getD x.trackColor
    trackName := (name.map (List.take nameVis)).getD x.trackName }

/-- The slot after the part of DAWSYNC that acts on the current bank: the mirrored, clamped value
(41_bank_state.md R182). -/
def mirrorSlot (x : Slot) (value : Option Byte) : Slot :=
  match value with
  | none => x
  | some v => { x with localValue := clampToSlot x v.toNat }

/-- DAWSYNC on a slot in range (41_bank_state.md R180 to R184). -/
def dawSyncAt (b : Fin Config.nBank) (t : Fin Config.nTrack) (value : Option Byte) (color : Option (BitVec 16)) (name : Option (List Byte))
    (s : State) : State :=
  let x := syncSlot s.cfg.valued.nameVis (s.slot b t) value color name
  if b = s.currentBank then (s.setSlot b t (mirrorSlot x value)).notify (.dirty t) else s.setSlot b t x

/-- DAWSYNC (41_bank_state.md R180): nothing at all outside `track` 0 to 15 and `bank` 0 to 3. -/
def dawSync (track bank : Nat) (value : Option Byte) (color : Option (BitVec 16)) (name : Option (List Byte))
    (s : State) : State :=
  if h : track < Config.nTrack ∧ bank < Config.nBank then dawSyncAt ⟨bank, h.2⟩ ⟨track, h.1⟩ value color name s else s

/-! ## One quadrature sample with its coupling -/

/-- The coupling of a step event: an EncoderStep is applied to the current bank at once, a NavEncoderStep leaves the
block (40_input_decoder.md R138, 41_bank_state.md R171; log 7). -/
def couple (ch : Fin Config.nCh) (delta : Int) (s : State) : State :=
  if ch.val < Config.nMain then applyStep ch.val delta s.currentBank.val s else s

/-- A code handed to a channel: the channel's record, the event it emits, and the coupling of that event
(40_input_decoder.md R131, 41_bank_state.md R171). -/
def sampleCode (ch : Fin Config.nCh) (code : BitVec 4) (now : Time) (s : State) : State :=
  match quadNext s.cfg.valued s.accelEn code now (s.chan ch) with
  | (c, none) => s.setChan ch c
  | (c, some delta) => couple ch delta ((s.setChan ch c).emit (stepEvent ch delta))

/-- QSAMPLE with its coupling: the code is formed from the channel's phase (40_input_decoder.md R131). -/
def sample (ch : Fin Config.nCh) (ph : BitVec 2) (now : Time) (s : State) : State :=
  sampleCode ch (codeOf (s.chan ch).phase ph) now s

/-! ## Transport, timebase, frames -/

/-- MTCQF with its fields extracted: the timebase's update, and MtcInvalid when a piece 7 fails the test
(44_mtc_transport.md R271, R281). -/
def mtcPiece (piece : BitVec 3) (n : BitVec 4) (s : State) : State :=
  let m := mtcNext s.cfg.valued piece n s.mtc
  let s' := { s with mtc := m }
  if piece = 7 ∧ m.valid = false then raiseError .mtcInvalid s' else s'

/-- MTCQF (44_mtc_transport.md R271, R272). -/
def quarterFrame (b : Byte) (s : State) : State := mtcPiece (pieceOf b) (nibbleOf b) s

/-- RT, one action per realtime status (44_mtc_transport.md R284 to R290). -/
def realtime (status : Byte) (now : Time) (s : State) : State :=
  match status.toNat with
  | 0xFA => { s with xp := { s.xp with playing := true, paused := false } }
  | 0xFB => { s with xp := { s.xp with playing := true, paused := false } }
  | 0xFC => { s with xp := { s.xp with playing := false, paused := false } }
  | 0xFE => { s with lastSense := now }
  | 0xFF => { s with mtc := mtcClear, xp := transportClear }
  | _ => s

/-- RXPKT: the dispatch of one packet (43_inbound_sysex.md R231 to R235). A channel-voice packet and a packet of no
class change nothing (R232, R233). -/
def receivePacket (header status data1 : Byte) (now : Time) (s : State) : State :=
  match packetClass header status with
  | .voice => s
  | .mtc => quarterFrame data1 s
  | .realtime => realtime status now s
  | .ignored => s

/-- The action of a frame of a known type whose length check has passed (43_inbound_sysex.md R240, R250 to R257). -/
def frameAction (t : Nat) (track bank : Byte) (payload : List Byte) (s : State) : State :=
  match t with
  | 1 => dawSync track.toNat bank.toNat none
      (some (pack565 (payloadByte payload 0) (payloadByte payload 1) (payloadByte payload 2))) none s
  | 2 => dawSync track.toNat bank.toNat (some (payloadByte payload 0)) none none s
  | 3 => dawSync track.toNat bank.toNat none none (some (payload.take s.cfg.valued.nameRx)) s
  | 4 => if h : track.toNat < Config.nTrack then s.notify (.vu ⟨track.toNat, h⟩ (payloadByte payload 0)) else s
  | 5 => { s with xp := transportOf s.cfg (payloadByte payload 0) }
  | _ => dawSync track.toNat bank.toNat (some (payloadByte payload 0))
      (some (pack565 (payloadByte payload 1) (payloadByte payload 2) (payloadByte payload 3))) none s

/-- RXSYSEX: envelope, type, count, length, action, in that order (43_inbound_sysex.md R240 to R247,
60_exceptions.md R316). -/
def receiveFrame (bytes : List Byte) (s : State) : State :=
  match parseFrame s.cfg.valued.sysexId bytes with
  | none => raiseError .malformedPacket s
  | some (t, track, bank, payload) =>
    if t.toNat < 1 ∨ 6 < t.toNat then raiseError .malformedPacket s
    else
      let s' := { s with sysexCount := s.sysexCount + 1 }
      if bytes.length < minLen t.toNat then raiseError .undersizedSysEx s'
      else frameAction t.toNat track bank payload s'

/-! ## Hardware reset -/

/-- Hardware reset: every field of the block at its reset value (70_reset_and_hazards.md R340, 10_state.md R43). The
parameters, the number of flags and the streams already put out stay (log 16). -/
def hardReset (s : State) : State := State.initial s.cfg s.ready.length s.out s.inp

end Sys2Proof.Machine
end

