-- ==== Sys2Proof/Machine/Bank.lean ====
section
/-! DEFINITION. The Encoder Bank State: APPLYSTEP, APPLYSW, DAWSYNC, SETBANK, RESETSLOT, RESETALL, SLOTREAD, CFGWRITE,
SERIALIZE, DESERIALIZE. -/

namespace Sys2Proof.Machine

/-- APPLYSTEP index, delta, bank (41_bank_state.md R172 to R177). -/
def execApplystep (index : Byte) (delta : BitVec 8) (bank : Byte) (s : State) : Result :=
  .next (applyStep index.toNat delta.toInt bank.toNat s)

/-- APPLYSW sw, bank (41_bank_state.md R178, R179). -/
def execApplysw (sw bank : Byte) (s : State) : Result := .next (applySw sw.toNat bank.toNat s)

/-- DAWSYNC track, bank, value?, color?, name? (41_bank_state.md R180 to R184). -/
def execDawsync (track bank : Byte) (value : Option Byte) (color : Option (BitVec 16)) (name : Option (List Byte))
    (s : State) : Result :=
  .next (dawSync track.toNat bank.toNat value color name s)

/-- SETBANK bank (41_bank_state.md R185, R186). -/
def execSetbank (bank : Byte) (s : State) : Result :=
  if h : bank.toNat < Config.nBank then .next { s with currentBank := ⟨bank.toNat, h⟩ } else .next s

/-- RESETSLOT bank, track (41_bank_state.md R188). -/
def execResetslot (bank track : Byte) (s : State) : Result :=
  if h : bank.toNat < Config.nBank ∧ track.toNat < Config.nTrack then
    .next (s.setSlot ⟨bank.toNat, h.1⟩ ⟨track.toNat, h.2⟩ (s.cfg.defaults.at ⟨bank.toNat, h.1⟩ ⟨track.toNat, h.2⟩))
  else .next s

/-- RESETALL (41_bank_state.md R189). -/
def execResetall (s : State) : Result := .next { s with slots := s.cfg.defaults }

/-- SLOTREAD bank, track (41_bank_state.md R190). -/
def execSlotread (bank track : Byte) (s : State) : Result :=
  if h : bank.toNat < Config.nBank ∧ track.toNat < Config.nTrack then
    .next (s.ret (.slot (some (s.slot ⟨bank.toNat, h.1⟩ ⟨track.toNat, h.2⟩))))
  else .next (s.ret (.slot none))

/-- CFGWRITE bank, track, field, v (41_bank_state.md R191, R192; log 12): nothing outside the table, then a refusal of
a value out of range or of an edit that breaks the slot's invariant. -/
def execCfgwrite (bank track : Byte) (edit : CfgEdit) (s : State) : Result :=
  if h : bank.toNat < Config.nBank ∧ track.toNat < Config.nTrack then
    match editSlot s.cfg.valued.nameVis (s.slot ⟨bank.toNat, h.1⟩ ⟨track.toNat, h.2⟩) edit with
    | none => .refused .editBreaksSlot
    | some x =>
      if slotOk s.cfg.valued.nameVis x then .next (s.setSlot ⟨bank.toNat, h.1⟩ ⟨track.toNat, h.2⟩ x) else .refused .editBreaksSlot
  else .next s

/-- SERIALIZE (41_bank_state.md R196): it returns a blob of the bank table and the configuration and changes nothing.
The blob is what the abstract pair of R196 writes, a free value that keeps the law of the pair. DESIGN CHOICE (log 11). -/
def execSerialize (s : State) : Result :=
  .next (s.ret (.blob (Config.blobOf { slots := s.slots, currentBank := s.currentBank, accelEn := s.accelEn })))

/-- DESERIALIZE blob (41_bank_state.md R196): it restores the bank table and the configuration from the blob. What the
blob holds is what the abstract pair of R196 reads, a free value that keeps the law of the pair, held to the ranges of
10_state.md R28 and R29. The restore raises no Dirty and sends nothing: R196 says nothing of a notification. DESIGN CHOICE
(log 11), unsafe where the hardware notifies the display of a restored track. -/
def execDeserialize (blob : List Byte) (s : State) : Result :=
  .next { s with
    slots := legalTable s.cfg.valued.nameVis (Config.savedOf blob).slots
    currentBank := (Config.savedOf blob).currentBank
    accelEn := (Config.savedOf blob).accelEn }

end Sys2Proof.Machine
end

