-- ==== Sys2Proof/Machine/Outbound.lean ====
section
/-! DEFINITION. The outbound side: ENQ, DRAIN, and the six TX rows, each one message put on the wire by the
serialiser (42_outbound.md; log 3). -/

namespace Sys2Proof.Machine

/-- ENQ msg (42_outbound.md R201 to R204): the refusal of an ill-formed message comes before the full test
(60_exceptions.md R316; log 13). -/
def execEnq (msg : Msg) (s : State) : Result :=
  if msgWf s.cfg.sysexMax msg then .next ((enqueue msg s).ret (.enq (!s.oq.full s.cfg.valued.qCap)))
  else .refused .illFormedMessage

/-- DRAIN (42_outbound.md R205 to R207). -/
def execDrain (s : State) : Result := .next (drain s)

/-- TX.ControlChange (42_outbound.md R210). -/
def execTxControlChange (c : BitVec 4) (k v : BitVec 7) (s : State) : Result :=
  .next (s.tx (serialise (.controlChange (c.toNat + 1) k.toNat v.toNat)))

/-- TX.NoteOn (42_outbound.md R211). -/
def execTxNoteOn (c : BitVec 4) (n v : BitVec 7) (s : State) : Result :=
  .next (s.tx (serialise (.noteOn (c.toNat + 1) n.toNat v.toNat)))

/-- TX.NoteOff (42_outbound.md R212). -/
def execTxNoteOff (c : BitVec 4) (n v : BitVec 7) (s : State) : Result :=
  .next (s.tx (serialise (.noteOff (c.toNat + 1) n.toNat v.toNat)))

/-- TX.PitchBend (42_outbound.md R214): `l` is u[6:0], `m` is u[13:7], the value is u − 8192. -/
def execTxPitchBend (c : BitVec 4) (l m : BitVec 7) (s : State) : Result :=
  .next (s.tx (serialise (.pitchBend (c.toNat + 1) (((m ++ l).toNat : Int) - 8192))))

/-- TX.Realtime (42_outbound.md R216). -/
def execTxRealtime (b : Byte) (s : State) : Result := .next (s.tx (serialise (.realtime b)))

/-- TX.SysEx (42_outbound.md R215). -/
def execTxSysEx (bytes : List Byte) (s : State) : Result := .next (s.tx (serialise (.sysEx bytes)))

end Sys2Proof.Machine
end

