-- ==== Sys2Proof/Machine/Packet.lean ====
section
/-! DEFINITION. The inbound packets: the seventeen PKT4 rows, RXPKT, RT, and the pseudo-operations SYSRESET and
RTBYTE. -/

namespace Sys2Proof.Machine

/-! ## PKT4 rows: the packet of that class, received (30_encoding.md R94; log 3) -/

/-- RXPKT.CV_8 (43_inbound_sysex.md R232). -/
def execPktCv8 (hi : BitVec 4) (status data1 _data2 : Byte) (now : Time) (s : State) : Result :=
  .next (receivePacket (hi ++ 0x8#4) status data1 now s)

/-- RXPKT.CV_9 (43_inbound_sysex.md R232). -/
def execPktCv9 (hi : BitVec 4) (status data1 _data2 : Byte) (now : Time) (s : State) : Result :=
  .next (receivePacket (hi ++ 0x9#4) status data1 now s)

/-- RXPKT.CV_A (43_inbound_sysex.md R232). -/
def execPktCvA (hi : BitVec 4) (status data1 _data2 : Byte) (now : Time) (s : State) : Result :=
  .next (receivePacket (hi ++ 0xA#4) status data1 now s)

/-- RXPKT.CV_B (43_inbound_sysex.md R232). -/
def execPktCvB (hi : BitVec 4) (status data1 _data2 : Byte) (now : Time) (s : State) : Result :=
  .next (receivePacket (hi ++ 0xB#4) status data1 now s)

/-- RXPKT.CV_C (43_inbound_sysex.md R232). -/
def execPktCvC (hi : BitVec 4) (status data1 _data2 : Byte) (now : Time) (s : State) : Result :=
  .next (receivePacket (hi ++ 0xC#4) status data1 now s)

/-- RXPKT.CV_D (43_inbound_sysex.md R232). -/
def execPktCvD (hi : BitVec 4) (status data1 _data2 : Byte) (now : Time) (s : State) : Result :=
  .next (receivePacket (hi ++ 0xD#4) status data1 now s)

/-- RXPKT.CV_E (43_inbound_sysex.md R232). -/
def execPktCvE (hi : BitVec 4) (status data1 _data2 : Byte) (now : Time) (s : State) : Result :=
  .next (receivePacket (hi ++ 0xE#4) status data1 now s)

/-- RXPKT.MTC (43_inbound_sysex.md R235). -/
def execPktMtc (header qf _data2 : Byte) (now : Time) (s : State) : Result :=
  .next (receivePacket header 0xF1 qf now s)

/-- RXPKT.RT_F8 (43_inbound_sysex.md R234, 44_mtc_transport.md R290). -/
def execPktRtF8 (hi : BitVec 4) (data1 _data2 : Byte) (now : Time) (s : State) : Result :=
  .next (receivePacket (hi ++ 0xF#4) 0xF8 data1 now s)

/-- RXPKT.RT_F9 (43_inbound_sysex.md R234, 44_mtc_transport.md R290). -/
def execPktRtF9 (hi : BitVec 4) (data1 _data2 : Byte) (now : Time) (s : State) : Result :=
  .next (receivePacket (hi ++ 0xF#4) 0xF9 data1 now s)

/-- RXPKT.RT_FA (43_inbound_sysex.md R234, 44_mtc_transport.md R285). -/
def execPktRtFA (hi : BitVec 4) (data1 _data2 : Byte) (now : Time) (s : State) : Result :=
  .next (receivePacket (hi ++ 0xF#4) 0xFA data1 now s)

/-- RXPKT.RT_FB (43_inbound_sysex.md R234, 44_mtc_transport.md R286). -/
def execPktRtFB (hi : BitVec 4) (data1 _data2 : Byte) (now : Time) (s : State) : Result :=
  .next (receivePacket (hi ++ 0xF#4) 0xFB data1 now s)

/-- RXPKT.RT_FC (43_inbound_sysex.md R234, 44_mtc_transport.md R287). -/
def execPktRtFC (hi : BitVec 4) (data1 _data2 : Byte) (now : Time) (s : State) : Result :=
  .next (receivePacket (hi ++ 0xF#4) 0xFC data1 now s)

/-- RXPKT.RT_FD (43_inbound_sysex.md R234, 44_mtc_transport.md R290). -/
def execPktRtFD (hi : BitVec 4) (data1 _data2 : Byte) (now : Time) (s : State) : Result :=
  .next (receivePacket (hi ++ 0xF#4) 0xFD data1 now s)

/-- RXPKT.RT_FE (43_inbound_sysex.md R234, 44_mtc_transport.md R288). -/
def execPktRtFE (hi : BitVec 4) (data1 _data2 : Byte) (now : Time) (s : State) : Result :=
  .next (receivePacket (hi ++ 0xF#4) 0xFE data1 now s)

/-- RXPKT.RT_FF (43_inbound_sysex.md R234, 44_mtc_transport.md R289). -/
def execPktRtFF (hi : BitVec 4) (data1 _data2 : Byte) (now : Time) (s : State) : Result :=
  .next (receivePacket (hi ++ 0xF#4) 0xFF data1 now s)

/-- RXPKT.IGNORED (43_inbound_sysex.md R233). -/
def execPktIgnored (header status data1 _data2 : Byte) (now : Time) (s : State) : Result :=
  .next (receivePacket header status data1 now s)

/-! ## Operations -/

/-- RXPKT header, status, data1, data2, now (43_inbound_sysex.md R231). -/
def execRxpkt (header status data1 _data2 : Byte) (now : Time) (s : State) : Result :=
  .next (receivePacket header status data1 now s)

/-- RT status, now (44_mtc_transport.md R284). A status below F8 is refused (93_implementation_defined.md U21;
log 14). -/
def execRt (status : Byte) (now : Time) (s : State) : Result :=
  if 0xF8 ≤ status.toNat then .next (realtime status now s) else .refused (.notRealtime status)

/-- SYSRESET now: `RXPKT 0x0F, 0xFF, 0x00, 0x00, now` (30_encoding.md R121). -/
def execSysreset (now : Time) (s : State) : Result := .next (receivePacket 0x0F 0xFF 0x00 now s)

/-- RTBYTE s, now: `RXPKT 0x0F, s, 0x00, 0x00, now` (30_encoding.md R121). -/
def execRtbyte (b : Byte) (now : Time) (s : State) : Result := .next (receivePacket 0x0F b 0x00 now s)

end Sys2Proof.Machine
end

