-- ==== Sys2Proof/Machine/Quad.lean ====
section
/-! DEFINITION. Quadrature samples: the sixteen QCODE rows, QSAMPLE, SETACCEL, TURNCW and TURNCCW. -/

namespace Sys2Proof.Machine

/-! ## QCODE rows: the code itself is handed to the decoder (30_encoding.md R91, R92; log 3) -/

/-- QCODE_0000 (30_encoding.md R92, 40_input_decoder.md R131 to R136). -/
def execQcode0000 (ch : Fin Config.nCh) (now : Time) (s : State) : Result := .next (sampleCode ch 0b0000#4 now s)

/-- QCODE_0001 (30_encoding.md R92, 40_input_decoder.md R131 to R136). -/
def execQcode0001 (ch : Fin Config.nCh) (now : Time) (s : State) : Result := .next (sampleCode ch 0b0001#4 now s)

/-- QCODE_0010 (30_encoding.md R92, 40_input_decoder.md R131 to R136). -/
def execQcode0010 (ch : Fin Config.nCh) (now : Time) (s : State) : Result := .next (sampleCode ch 0b0010#4 now s)

/-- QCODE_0011 (30_encoding.md R92, 40_input_decoder.md R131 to R136). -/
def execQcode0011 (ch : Fin Config.nCh) (now : Time) (s : State) : Result := .next (sampleCode ch 0b0011#4 now s)

/-- QCODE_0100 (30_encoding.md R92, 40_input_decoder.md R131 to R136). -/
def execQcode0100 (ch : Fin Config.nCh) (now : Time) (s : State) : Result := .next (sampleCode ch 0b0100#4 now s)

/-- QCODE_0101 (30_encoding.md R92, 40_input_decoder.md R131 to R136). -/
def execQcode0101 (ch : Fin Config.nCh) (now : Time) (s : State) : Result := .next (sampleCode ch 0b0101#4 now s)

/-- QCODE_0110 (30_encoding.md R92, 40_input_decoder.md R131 to R136). -/
def execQcode0110 (ch : Fin Config.nCh) (now : Time) (s : State) : Result := .next (sampleCode ch 0b0110#4 now s)

/-- QCODE_0111 (30_encoding.md R92, 40_input_decoder.md R131 to R136). -/
def execQcode0111 (ch : Fin Config.nCh) (now : Time) (s : State) : Result := .next (sampleCode ch 0b0111#4 now s)

/-- QCODE_1000 (30_encoding.md R92, 40_input_decoder.md R131 to R136). -/
def execQcode1000 (ch : Fin Config.nCh) (now : Time) (s : State) : Result := .next (sampleCode ch 0b1000#4 now s)

/-- QCODE_1001 (30_encoding.md R92, 40_input_decoder.md R131 to R136). -/
def execQcode1001 (ch : Fin Config.nCh) (now : Time) (s : State) : Result := .next (sampleCode ch 0b1001#4 now s)

/-- QCODE_1010 (30_encoding.md R92, 40_input_decoder.md R131 to R136). -/
def execQcode1010 (ch : Fin Config.nCh) (now : Time) (s : State) : Result := .next (sampleCode ch 0b1010#4 now s)

/-- QCODE_1011 (30_encoding.md R92, 40_input_decoder.md R131 to R136). -/
def execQcode1011 (ch : Fin Config.nCh) (now : Time) (s : State) : Result := .next (sampleCode ch 0b1011#4 now s)

/-- QCODE_1100 (30_encoding.md R92, 40_input_decoder.md R131 to R136). -/
def execQcode1100 (ch : Fin Config.nCh) (now : Time) (s : State) : Result := .next (sampleCode ch 0b1100#4 now s)

/-- QCODE_1101 (30_encoding.md R92, 40_input_decoder.md R131 to R136). -/
def execQcode1101 (ch : Fin Config.nCh) (now : Time) (s : State) : Result := .next (sampleCode ch 0b1101#4 now s)

/-- QCODE_1110 (30_encoding.md R92, 40_input_decoder.md R131 to R136). -/
def execQcode1110 (ch : Fin Config.nCh) (now : Time) (s : State) : Result := .next (sampleCode ch 0b1110#4 now s)

/-- QCODE_1111 (30_encoding.md R92, 40_input_decoder.md R131 to R136). -/
def execQcode1111 (ch : Fin Config.nCh) (now : Time) (s : State) : Result := .next (sampleCode ch 0b1111#4 now s)

/-! ## Operations -/

/-- QSAMPLE ch, ph, now (40_input_decoder.md R131), with the coupling of its event (41_bank_state.md R171; log 7). -/
def execQsample (ch : Fin Config.nCh) (ph : BitVec 2) (now : Time) (s : State) : Result := .next (sample ch ph now s)

/-- SETACCEL en (40_input_decoder.md R141). -/
def execSetaccel (en : Bool) (s : State) : Result := .next { s with accelEn := en }

/-- Four QSAMPLEs on one channel at `t0`, `t0+dt`, `t0+2dt`, `t0+3dt` (30_encoding.md R121). -/
def turn (ch : Fin Config.nCh) (p0 p1 p2 p3 : BitVec 2) (t0 dt : Time) (s : State) : State :=
  sample ch p3 (t0 + 3 * dt) (sample ch p2 (t0 + 2 * dt) (sample ch p1 (t0 + dt) (sample ch p0 t0 s)))

/-- TURNCW ch, t0, dt: phases 01, 00, 10, 11 (30_encoding.md R121). -/
def execTurncw (ch : Fin Config.nCh) (t0 dt : Time) (s : State) : Result := .next (turn ch 0b01 0b00 0b10 0b11 t0 dt s)

/-- TURNCCW ch, t0, dt: phases 10, 00, 01, 11 (30_encoding.md R121). -/
def execTurnccw (ch : Fin Config.nCh) (t0 dt : Time) (s : State) : Result := .next (turn ch 0b10 0b00 0b01 0b11 t0 dt s)

end Sys2Proof.Machine
end

