-- ==== Sys2Proof/Machine/Poll.lean ====
section
/-! DEFINITION. The data-ready flags, the main-encoder service, and the gated polls: FLAGSET, FLAGCLR, ENCSERVICE and
its later steps, SWPOLL, BTNPOLL, SNAP16, NAVENC, NAVBTN. -/

namespace Sys2Proof.Machine

/-! ## Flags -/

/-- FLAGSET h, agent ISR (40_input_decoder.md R144). A flag that does not exist is refused
(93_implementation_defined.md U21; log 14). -/
def execFlagset (h : Nat) (s : State) : Result :=
  if h < s.ready.length then .next (setFlag h s) else .refused (.noSuchFlag h)

/-- FLAGCLR h (40_input_decoder.md R145). -/
def execFlagclr (h : Nat) (s : State) : Result :=
  if h < s.ready.length then .next (clearFlag h s) else .refused (.noSuchFlag h)

/-! ## ENCSERVICE in its three steps (40_input_decoder.md R146; log 6) -/

/-- Step 1: a clear flag ends the service; a set flag leaves it to its step 2. -/
def execEncservice (h : Nat) (ph : Vector (BitVec 2) Config.nMain) (now : Time) (s : State) : Result :=
  if h < s.ready.length then
    if flagIsSet h s then .next { s with svc := some { half := h, ph := ph, now := now, stage := .sample } }
    else .next s
  else .refused (.noSuchFlag h)

/-- Step 2 for the main channels of a list, in order: QSAMPLE and its coupling on each that the half covers. -/
def serviceChannels (v : Service) : List (Fin Config.nMain) → State → State
  | [], s => s
  | i :: rest, s =>
    serviceChannels v rest
      (if s.cfg.halfOf[i.val] = v.half then sample (mainChannel i) v.ph[i.val] v.now s else s)

/-- Step 2 or step 3 of the service in progress, whichever is next. -/
def serviceStep (v : Service) (s : State) : State :=
  match v.stage with
  | .sample => { serviceChannels v mainIndices s with svc := some { v with stage := .clear } }
  | .clear => clearFlag v.half { s with svc := none }

/-! ## Switches and buttons -/

/-- The events of a switch snapshot for the indices of a list, in order, each applied before the next is examined
(40_input_decoder.md R150, 60_exceptions.md R316). -/
def switchPresses (old new : BitVec 16) : List (Fin Config.nSw) → State → State
  | [], s => s
  | i :: rest, s =>
    switchPresses old new rest
      (if pressed old new i.val then applySw i.val s.currentBank.val (s.emit (.switchChanged i)) else s)

/-- SWPOLL (40_input_decoder.md R150 to R152). -/
def switchPoll (snap : BitVec 16) (now : Time) (s : State) : State :=
  if tdiff now s.sw.tPoll < s.cfg.valued.tDeb then s
  else
    let s' := switchPresses s.sw.snap snap switchIndices { s with sw := { s.sw with tPoll := now } }
    { s' with sw := { s'.sw with snap := snap } }

/-- The events of a button snapshot for the indices of a list, in order (40_input_decoder.md R153). -/
def buttonPresses (old new : BitVec 16) : List (Fin Config.nBtn) → State → State
  | [], s => s
  | i :: rest, s =>
    buttonPresses old new rest (if pressed old new i.val then s.emit (.buttonChanged i) else s)

/-- BTNPOLL (40_input_decoder.md R153). -/
def buttonPoll (snap : BitVec 16) (now : Time) (s : State) : State :=
  if tdiff now s.btn.tPoll < s.cfg.valued.tDeb then s
  else
    let s' := buttonPresses s.btn.snap snap buttonIndices { s with btn := { s.btn with tPoll := now } }
    { s' with btn := { s'.btn with snap := snap } }

/-- SWPOLL snap, now (40_input_decoder.md R150). -/
def execSwpoll (snap : BitVec 16) (now : Time) (s : State) : Result := .next (switchPoll snap now s)

/-- BTNPOLL snap, now (40_input_decoder.md R153). -/
def execBtnpoll (snap : BitVec 16) (now : Time) (s : State) : Result := .next (buttonPoll snap now s)

/-- SNAP16: a snapshot presented on the switch port or on the button port (30_encoding.md R109; log 3). -/
def execSnap16 (button : Bool) (snap : BitVec 16) (now : Time) (s : State) : Result :=
  if button then .next (buttonPoll snap now s) else .next (switchPoll snap now s)

/-! ## Navigation encoder and button -/

/-- NAVENC ph, now (40_input_decoder.md R156). -/
def execNavenc (ph : BitVec 2) (now : Time) (s : State) : Result :=
  if tdiff now s.navPoll < s.cfg.valued.tNav then .next s
  else .next (sample navChannel ph now { s with navPoll := now })

/-- NAVBTN lvl, now (40_input_decoder.md R160, R161). -/
def execNavbtn (lvl : Bool) (now : Time) (s : State) : Result :=
  if lvl ≠ s.nb.raw then .next { s with nb := { s.nb with raw := lvl, tChange := now } }
  else if s.nb.raw ≠ s.nb.stable ∧ s.cfg.valued.tNavBtn ≤ tdiff now s.nb.tChange then
    let s' := { s with nb := { s.nb with stable := s.nb.raw } }
    if s'.nb.stable = false then .next (s'.emit .navButtonPressed) else .next s'
  else .next s

end Sys2Proof.Machine
end

