-- ==== Sys2Proof/Machine/Status.lean ====
section
/-! DEFINITION. The operations that only answer: PACK565, UNPACK565, the RGB565 row, STATREAD. -/

namespace Sys2Proof.Machine

/-- PACK565 r, g, b (43_inbound_sysex.md R260). -/
def execPack565 (r g b : Byte) (s : State) : Result := .next (s.ret (.packed (pack565 r g b)))

/-- UNPACK565 c (43_inbound_sysex.md R261). -/
def execUnpack565 (c : BitVec 16) (s : State) : Result := .next (s.ret (.rgb (red565 c) (green565 c) (blue565 c)))

/-- RGB565: a packed colour presented answers its three zero-filled colour bytes (30_encoding.md R106; log 3). -/
def execRgb565 (r : BitVec 5) (g : BitVec 6) (b : BitVec 5) (s : State) : Result :=
  let c : BitVec 16 := r ++ g ++ b
  .next (s.ret (.rgb (red565 c) (green565 c) (blue565 c)))

/-- STATREAD i (44_mtc_transport.md R292). -/
def execStatread (i : Byte) (s : State) : Result := .next (s.ret (.status (statusRegister s i.toNat)))

end Sys2Proof.Machine
end

