-- ==== Sys2Proof/Machine/Sysex.lean ====
section
/-! DEFINITION. Inbound SysEx: the seven SYSEX rows, RXSYSEX, XPORT8, and the pseudo-operation SX. -/

namespace Sys2Proof.Machine

/-! ## SYSEX rows: the frame of that type, received (30_encoding.md R101, R102; log 3) -/

/-- RXSYSEX.T01 (43_inbound_sysex.md R240, R250). -/
def execSxT01 (track bank : Byte) (payload : List Byte) (s : State) : Result :=
  .next (receiveFrame (frameOf 0x01 track bank payload) s)

/-- RXSYSEX.T02 (43_inbound_sysex.md R240, R251). -/
def execSxT02 (track bank : Byte) (payload : List Byte) (s : State) : Result :=
  .next (receiveFrame (frameOf 0x02 track bank payload) s)

/-- RXSYSEX.T03 (43_inbound_sysex.md R240, R252). -/
def execSxT03 (track bank : Byte) (payload : List Byte) (s : State) : Result :=
  .next (receiveFrame (frameOf 0x03 track bank payload) s)

/-- RXSYSEX.T04 (43_inbound_sysex.md R240, R253). -/
def execSxT04 (track bank : Byte) (payload : List Byte) (s : State) : Result :=
  .next (receiveFrame (frameOf 0x04 track bank payload) s)

/-- RXSYSEX.T05 (43_inbound_sysex.md R240, R254). -/
def execSxT05 (track bank : Byte) (payload : List Byte) (s : State) : Result :=
  .next (receiveFrame (frameOf 0x05 track bank payload) s)

/-- RXSYSEX.T06 (43_inbound_sysex.md R240, R255). -/
def execSxT06 (track bank : Byte) (payload : List Byte) (s : State) : Result :=
  .next (receiveFrame (frameOf 0x06 track bank payload) s)

/-- RXSYSEX.MALFORMED (43_inbound_sysex.md R241, R244, R247). -/
def execSxMalformed (bytes : List Byte) (s : State) : Result := .next (receiveFrame bytes s)

/-- XPORT8: a transport state byte, the payload of a type 05 frame (30_encoding.md R107). It reaches the block only in
such a frame (43_inbound_sysex.md R254, 44_mtc_transport.md R291), so the row is that frame received, with track and bank 0,
which R254 does not read (log 3). -/
def execXport8 (b : Byte) (s : State) : Result := .next (receiveFrame (frameOf 0x05 0 0 [b]) s)

/-! ## Operations -/

/-- RXSYSEX bytes (43_inbound_sysex.md R240). -/
def execRxsysex (bytes : List Byte) (s : State) : Result := .next (receiveFrame bytes s)

/-- SX t, track, bank, payload: `RXSYSEX [F0, 00, 21, 7B, t, track, bank, payload..., F7]` (30_encoding.md R121). -/
def execSx (t track bank : Byte) (payload : List Byte) (s : State) : Result :=
  .next (receiveFrame (frameOf t track bank payload) s)

end Sys2Proof.Machine
end

