-- ==== Sys2Proof/Machine/Timecode.lean ====
section
/-! DEFINITION. MTC: the eight QF8 rows, MTCQF, and the pseudo-operations QFRAME and MTCFULL. -/

namespace Sys2Proof.Machine

/-! ## QF8 rows (30_encoding.md R104, R105; log 3) -/

/-- MTCQF.P0 (44_mtc_transport.md R273). Bit 7 of the byte is ignored (R272). -/
def execQfP0 (_x : BitVec 1) (n : BitVec 4) (s : State) : Result := .next (mtcPiece 0 n s)

/-- MTCQF.P1 (44_mtc_transport.md R273). Bit 7 of the byte is ignored (R272). -/
def execQfP1 (_x : BitVec 1) (n : BitVec 4) (s : State) : Result := .next (mtcPiece 1 n s)

/-- MTCQF.P2 (44_mtc_transport.md R274). Bit 7 of the byte is ignored (R272). -/
def execQfP2 (_x : BitVec 1) (n : BitVec 4) (s : State) : Result := .next (mtcPiece 2 n s)

/-- MTCQF.P3 (44_mtc_transport.md R274). Bit 7 of the byte is ignored (R272). -/
def execQfP3 (_x : BitVec 1) (n : BitVec 4) (s : State) : Result := .next (mtcPiece 3 n s)

/-- MTCQF.P4 (44_mtc_transport.md R275). Bit 7 of the byte is ignored (R272). -/
def execQfP4 (_x : BitVec 1) (n : BitVec 4) (s : State) : Result := .next (mtcPiece 4 n s)

/-- MTCQF.P5 (44_mtc_transport.md R275). Bit 7 of the byte is ignored (R272). -/
def execQfP5 (_x : BitVec 1) (n : BitVec 4) (s : State) : Result := .next (mtcPiece 5 n s)

/-- MTCQF.P6 (44_mtc_transport.md R276). Bit 7 of the byte is ignored (R272). -/
def execQfP6 (_x : BitVec 1) (n : BitVec 4) (s : State) : Result := .next (mtcPiece 6 n s)

/-- MTCQF.P7 (44_mtc_transport.md R277 to R281). Bit 7 of the byte is ignored (R272). -/
def execQfP7 (_x : BitVec 1) (n : BitVec 4) (s : State) : Result := .next (mtcPiece 7 n s)

/-! ## Operations -/

/-- MTCQF b (44_mtc_transport.md R271). -/
def execMtcqf (b : Byte) (s : State) : Result := .next (quarterFrame b s)

/-- The packet of a QFRAME: `RXPKT 0x02, 0xF1, (p << 4) | n, 0x00, 0` (30_encoding.md R121). -/
def quarterPacket (p : BitVec 3) (n : BitVec 4) (s : State) : State :=
  receivePacket 0x02 0xF1 (quarterByte 0 p n) 0 s

/-- QFRAME p, n (30_encoding.md R121). -/
def execQframe (p : BitVec 3) (n : BitVec 4) (s : State) : Result := .next (quarterPacket p n s)

/-- The nibble of the last packet of MTCFULL, `(r << 1) | hh[4]` (30_encoding.md R121). -/
def lastNibble (hh : Byte) (r : BitVec 2) : BitVec 4 := (0#1 ++ r) ++ hh.extractLsb' 4 1

/-- MTCFULL hh, mm, ss, ff, r: eight QFRAMEs, pieces 0 to 7 in order (30_encoding.md R121). -/
def execMtcfull (hh mm ss ff : Byte) (r : BitVec 2) (s : State) : Result :=
  let s1 := quarterPacket 1 (ff.extractLsb' 4 4) (quarterPacket 0 (ff.extractLsb' 0 4) s)
  let s3 := quarterPacket 3 (ss.extractLsb' 4 4) (quarterPacket 2 (ss.extractLsb' 0 4) s1)
  let s5 := quarterPacket 5 (mm.extractLsb' 4 4) (quarterPacket 4 (mm.extractLsb' 0 4) s3)
  .next (quarterPacket 7 (lastNibble hh r) (quarterPacket 6 (hh.extractLsb' 0 4) s5))

end Sys2Proof.Machine
end

