-- ==== Sys2Proof/Machine/Dispatch.lean ====
section
/-! DEFINITION. The dispatch: one arm per row of spec/opcode_table.json. -/

namespace Sys2Proof.Machine

def exec (i : Instr) (s : State) : Host.Outcome State Fault Refusal :=
  match i with
  | .qcode0000 ch now => Sys2Proof.Machine.execQcode0000 ch now s
  | .qcode0001 ch now => Sys2Proof.Machine.execQcode0001 ch now s
  | .qcode0010 ch now => Sys2Proof.Machine.execQcode0010 ch now s
  | .qcode0011 ch now => Sys2Proof.Machine.execQcode0011 ch now s
  | .qcode0100 ch now => Sys2Proof.Machine.execQcode0100 ch now s
  | .qcode0101 ch now => Sys2Proof.Machine.execQcode0101 ch now s
  | .qcode0110 ch now => Sys2Proof.Machine.execQcode0110 ch now s
  | .qcode0111 ch now => Sys2Proof.Machine.execQcode0111 ch now s
  | .qcode1000 ch now => Sys2Proof.Machine.execQcode1000 ch now s
  | .qcode1001 ch now => Sys2Proof.Machine.execQcode1001 ch now s
  | .qcode1010 ch now => Sys2Proof.Machine.execQcode1010 ch now s
  | .qcode1011 ch now => Sys2Proof.Machine.execQcode1011 ch now s
  | .qcode1100 ch now => Sys2Proof.Machine.execQcode1100 ch now s
  | .qcode1101 ch now => Sys2Proof.Machine.execQcode1101 ch now s
  | .qcode1110 ch now => Sys2Proof.Machine.execQcode1110 ch now s
  | .qcode1111 ch now => Sys2Proof.Machine.execQcode1111 ch now s
  | .pktCv8 hi status data1 data2 now => Sys2Proof.Machine.execPktCv8 hi status data1 data2 now s
  | .pktCv9 hi status data1 data2 now => Sys2Proof.Machine.execPktCv9 hi status data1 data2 now s
  | .pktCvA hi status data1 data2 now => Sys2Proof.Machine.execPktCvA hi status data1 data2 now s
  | .pktCvB hi status data1 data2 now => Sys2Proof.Machine.execPktCvB hi status data1 data2 now s
  | .pktCvC hi status data1 data2 now => Sys2Proof.Machine.execPktCvC hi status data1 data2 now s
  | .pktCvD hi status data1 data2 now => Sys2Proof.Machine.execPktCvD hi status data1 data2 now s
  | .pktCvE hi status data1 data2 now => Sys2Proof.Machine.execPktCvE hi status data1 data2 now s
  | .pktMtc header qf data2 now => Sys2Proof.Machine.execPktMtc header qf data2 now s
  | .pktRtF8 hi data1 data2 now => Sys2Proof.Machine.execPktRtF8 hi data1 data2 now s
  | .pktRtF9 hi data1 data2 now => Sys2Proof.Machine.execPktRtF9 hi data1 data2 now s
  | .pktRtFA hi data1 data2 now => Sys2Proof.Machine.execPktRtFA hi data1 data2 now s
  | .pktRtFB hi data1 data2 now => Sys2Proof.Machine.execPktRtFB hi data1 data2 now s
  | .pktRtFC hi data1 data2 now => Sys2Proof.Machine.execPktRtFC hi data1 data2 now s
  | .pktRtFD hi data1 data2 now => Sys2Proof.Machine.execPktRtFD hi data1 data2 now s
  | .pktRtFE hi data1 data2 now => Sys2Proof.Machine.execPktRtFE hi data1 data2 now s
  | .pktRtFF hi data1 data2 now => Sys2Proof.Machine.execPktRtFF hi data1 data2 now s
  | .pktIgnored header status data1 data2 now => Sys2Proof.Machine.execPktIgnored header status data1 data2 now s
  | .qfP0 x n => Sys2Proof.Machine.execQfP0 x n s
  | .qfP1 x n => Sys2Proof.Machine.execQfP1 x n s
  | .qfP2 x n => Sys2Proof.Machine.execQfP2 x n s
  | .qfP3 x n => Sys2Proof.Machine.execQfP3 x n s
  | .qfP4 x n => Sys2Proof.Machine.execQfP4 x n s
  | .qfP5 x n => Sys2Proof.Machine.execQfP5 x n s
  | .qfP6 x n => Sys2Proof.Machine.execQfP6 x n s
  | .qfP7 x n => Sys2Proof.Machine.execQfP7 x n s
  | .sxT01 track bank payload => Sys2Proof.Machine.execSxT01 track bank payload s
  | .sxT02 track bank payload => Sys2Proof.Machine.execSxT02 track bank payload s
  | .sxT03 track bank payload => Sys2Proof.Machine.execSxT03 track bank payload s
  | .sxT04 track bank payload => Sys2Proof.Machine.execSxT04 track bank payload s
  | .sxT05 track bank payload => Sys2Proof.Machine.execSxT05 track bank payload s
  | .sxT06 track bank payload => Sys2Proof.Machine.execSxT06 track bank payload s
  | .sxMalformed bytes => Sys2Proof.Machine.execSxMalformed bytes s
  | .txControlChange c k v => Sys2Proof.Machine.execTxControlChange c k v s
  | .txNoteOn c n v => Sys2Proof.Machine.execTxNoteOn c n v s
  | .txNoteOff c n v => Sys2Proof.Machine.execTxNoteOff c n v s
  | .txPitchBend c l m => Sys2Proof.Machine.execTxPitchBend c l m s
  | .txRealtime b => Sys2Proof.Machine.execTxRealtime b s
  | .txSysEx bytes => Sys2Proof.Machine.execTxSysEx bytes s
  | .xport8 b => Sys2Proof.Machine.execXport8 b s
  | .rgb565 r g b => Sys2Proof.Machine.execRgb565 r g b s
  | .snap16 button snap now => Sys2Proof.Machine.execSnap16 button snap now s
  | .qsample ch ph now => Sys2Proof.Machine.execQsample ch ph now s
  | .flagset h => Sys2Proof.Machine.execFlagset h s
  | .flagclr h => Sys2Proof.Machine.execFlagclr h s
  | .swpoll snap now => Sys2Proof.Machine.execSwpoll snap now s
  | .btnpoll snap now => Sys2Proof.Machine.execBtnpoll snap now s
  | .navenc ph now => Sys2Proof.Machine.execNavenc ph now s
  | .navbtn lvl now => Sys2Proof.Machine.execNavbtn lvl now s
  | .setaccel en => Sys2Proof.Machine.execSetaccel en s
  | .applystep index delta bank => Sys2Proof.Machine.execApplystep index delta bank s
  | .applysw sw bank => Sys2Proof.Machine.execApplysw sw bank s
  | .dawsync track bank value color name => Sys2Proof.Machine.execDawsync track bank value color name s
  | .setbank bank => Sys2Proof.Machine.execSetbank bank s
  | .resetslot bank track => Sys2Proof.Machine.execResetslot bank track s
  | .resetall => Sys2Proof.Machine.execResetall s
  | .slotread bank track => Sys2Proof.Machine.execSlotread bank track s
  | .cfgwrite bank track edit => Sys2Proof.Machine.execCfgwrite bank track edit s
  | .serialize => Sys2Proof.Machine.execSerialize s
  | .deserialize blob => Sys2Proof.Machine.execDeserialize blob s
  | .enq msg => Sys2Proof.Machine.execEnq msg s
  | .drain => Sys2Proof.Machine.execDrain s
  | .rxpkt header status data1 data2 now => Sys2Proof.Machine.execRxpkt header status data1 data2 now s
  | .rxsysex bytes => Sys2Proof.Machine.execRxsysex bytes s
  | .pack565 r g b => Sys2Proof.Machine.execPack565 r g b s
  | .unpack565 c => Sys2Proof.Machine.execUnpack565 c s
  | .mtcqf b => Sys2Proof.Machine.execMtcqf b s
  | .rt status now => Sys2Proof.Machine.execRt status now s
  | .statread idx => Sys2Proof.Machine.execStatread idx s
  | .encservice h ph now => Sys2Proof.Machine.execEncservice h ph now s
  | .sysreset now => Sys2Proof.Machine.execSysreset now s
  | .rtbyte b now => Sys2Proof.Machine.execRtbyte b now s
  | .qframe p n => Sys2Proof.Machine.execQframe p n s
  | .mtcfull hh mm ss ff r => Sys2Proof.Machine.execMtcfull hh mm ss ff r s
  | .sx t track bank payload => Sys2Proof.Machine.execSx t track bank payload s
  | .turncw ch t0 dt => Sys2Proof.Machine.execTurncw ch t0 dt s
  | .turnccw ch t0 dt => Sys2Proof.Machine.execTurnccw ch t0 dt s

end Sys2Proof.Machine
end

