-- ==== Sys2Proof/Machine/Step.lean ====
section
/-! DEFINITION. One step of the machine: a cycle of reset, a data-ready edge, a later step of an ENCSERVICE, or the
operation presented next; and the host's way of presenting one instruction. -/

namespace Sys2Proof.Machine

/-- The edges to come after one step of the polling loop: the soonest is one step nearer (log 6). -/
def tickEdges : List Edge → List Edge
  | [] => []
  | e :: rest => { e with after := e.after - 1 } :: rest

/-- One cycle with the reset input asserted: every field of the block at its reset value, no operation accepted, an
edge that falls now lost (70_reset_and_hazards.md R340; log 16). -/
def resetCycle (s : State) : State :=
  let irq :=
    match s.inp.irq with
    | [] => []
    | e :: rest => if e.after = 0 then rest else { e with after := e.after - 1 } :: rest
  { hardReset s with inp := { s.inp with rst := s.inp.rst - 1, irq := irq } }

/-- One step of agent SEQ: the next step of the ENCSERVICE in progress, or else the operation presented next; with
nothing presented the block is idle (70_reset_and_hazards.md R340; log 1, log 19). -/
def sequencerStep (s : State) : Result :=
  match s.svc with
  | some v => .next (serviceStep v s)
  | none =>
    match s.inp.inbox with
    | [] => .next s
    | x :: rest =>
      match decode x with
      | .ok i => exec i { s with inp := { s.inp with inbox := rest } }
      | .error why => .refused (.undecodable why)

/-- One step: reset first, then an edge of agent ISR whose time has come, then agent SEQ (00_scope.md R15,
20_memory.md R70; log 6, log 16). An edge on `irq[h]` is FLAGSET h (10_state.md R51). -/
def step (s : State) : Host.Outcome State Fault Refusal :=
  if s.inp.rst ≠ 0 then .next (resetCycle s)
  else
    match s.inp.irq with
    | [] => sequencerStep s
    | e :: rest =>
      if e.after = 0 then execFlagset e.line { s with inp := { s.inp with irq := rest } }
      else sequencerStep { s with inp := { s.inp with irq := tickEdges s.inp.irq } }

/-- The edges to come, none of them at this step. -/
def laterEdges : List Edge → List Edge
  | [] => []
  | e :: rest => { e with after := e.after + 1 } :: rest

/-- `s` with the instruction of a table word presented next: it stands first in the inbox, the reset input is
released, no ENCSERVICE is in progress, and no edge falls at the next step (log 1, log 4). -/
def State.withFetchWord (s : State) (nbits w : Nat) : State :=
  { s with
    svc := none
    inp := { s.inp with inbox := tableXact nbits w :: s.inp.inbox, rst := 0, irq := laterEdges s.inp.irq } }

end Sys2Proof.Machine
end

