-- ==== Sys2Proof/Safety.lean ====
section
/-! DEFINITION. The terms in which claims about the block are stated: the invariant of its state, runs of several
operations, the chains of operations inside a service and a poll, and the classes of instructions that may write one part of
the state. -/

namespace Sys2Proof.Machine

/-- The invariant of the block's state: what the spec says holds after reset and after every operation. -/
structure BlockInv (s : State) : Prop where
  /-- The accumulator bound (40_input_decoder.md R137). -/
  acc : ∀ ch, -3 ≤ (s.chan ch).acc.toInt ∧ (s.chan ch).acc.toInt ≤ 3
  /-- The slot invariant (10_state.md R29) and the name length (R28). -/
  slots : ∀ b t, (s.slot b t).wf s.cfg.valued.nameVis
  /-- Every entry held in the queue is well-formed (10_state.md R32, 42_outbound.md R203). -/
  queue : ∀ m ∈ s.oq.contents, msgWf s.cfg.sysexMax m = true
  /-- Hours lie in 0 to 31 (44_mtc_transport.md R277). -/
  hours : s.mtc.hours.toNat < 32
  /-- The parameters are as the spec demands (00_scope.md R9, 70_reset_and_hazards.md R362, 10_state.md R43,
  92_eei_decisions.md D35). -/
  params : s.cfg.wf
  /-- A service in progress is of a flag that exists (40_input_decoder.md R146). -/
  service : ∀ v, s.svc = some v → v.half < s.ready.length

/-- The operations of a list, one after another, as long as each answers a next state. -/
def execAll : List Instr → State → Result
  | [], s => .next s
  | i :: rest, s =>
    match exec i s with
    | .next t => execAll rest t
    | .fault r => .fault r
    | .refused r => .refused r

/-- The codes with direction +1 (30_encoding.md R92). -/
def positiveCodes : List (BitVec 4) := [0b1101, 0b0100, 0b0010, 0b1011]

/-- The codes with direction −1 (30_encoding.md R92). -/
def negativeCodes : List (BitVec 4) := [0b1110, 0b0111, 0b0001, 0b1000]

/-- The codes with direction 0 (30_encoding.md R92, the table). -/
def idleCodes : List (BitVec 4) := [0b0000, 0b0011, 0b0101, 0b0110, 0b1001, 0b1010, 0b1100, 0b1111]

/-- What the output streams hold in `s` they still hold in `t`, as their beginning; and the parameters and the number of
flags are those of `s` (log 8, log 9). -/
structure Keeps (s t : State) : Prop where
  events : s.out.events <+: t.out.events
  wire : s.out.wire <+: t.out.wire
  notes : s.out.notes <+: t.out.notes
  rets : s.out.rets <+: t.out.rets
  cfg : t.cfg = s.cfg
  halves : t.ready.length = s.ready.length

/-- A message handed to ENQ, from `s` to this state, under the capacity of 00_scope.md R9: on a full queue the error counter
grows, else the message is appended (42_outbound.md R201, R202). -/
def afterEnq (m : Msg) (s : State) : State :=
  if s.oq.count.val = 32 then { s with errorCount := s.errorCount + 1 } else { s with oq := s.oq.push m }

/-- What one valid transition of direction `dir` on channel `ch` leads to, from `s` to `t`, with the numbers of
00_scope.md R9 written out: the elapsed time, the multiplier, the threshold, the accumulator and the event of
40_input_decoder.md R131 to R138, and the coupling of that event to APPLYSTEP on the current bank (41_bank_state.md R171;
log 7). -/
def transitionTo (ch : Fin Config.nCh) (dir : Int) (ph : BitVec 2) (now : Time) (s t : State) : Prop :=
  let dt := (now - (s.chan ch).tLast).toNat
  let mult : Nat := if s.accelEn = true ∧ dt < 1 then 4 else if s.accelEn = true ∧ dt < 5 then 2 else 1
  let a := (s.chan ch).acc.toInt + dir
  if a.natAbs < 4 / mult then t = s.setChan ch { phase := ph, acc := BitVec.ofInt 8 a, tLast := now }
  else
    let delta := a.sign * mult
    let u := s.setChan ch { phase := ph, acc := 0, tLast := now }
    if h : ch.val < 16 then
      exec (.applystep (BitVec.ofNat 8 ch.val) (BitVec.ofInt 8 delta) (BitVec.ofNat 8 s.currentBank.val))
        (u.emit (.encoderStep ⟨ch.val, h⟩ delta)) = .next t
    else t = u.emit (.navEncoderStep delta)

/-- The samples of a list, the first from phase `last`, are all transitions of one direction, whose codes are in
`codes` (40_input_decoder.md R139). -/
def oneWay (codes : List (BitVec 4)) : BitVec 2 → List (BitVec 2 × Time) → Prop
  | _, [] => True
  | last, (ph, _) :: rest => codeOf last ph ∈ codes ∧ oneWay codes ph rest

/-- From `s`, QSAMPLE on each main channel of the list that the half covers, in order, leads to `t`
(40_input_decoder.md R146, step 2). -/
def serviceRun (v : Service) : List (Fin Config.nMain) → State → State → Prop
  | [], s, t => t = s
  | i :: rest, s, t =>
    ∃ m, (if s.cfg.halfOf[i.val] = v.half then exec (.qsample (mainChannel i) v.ph[i.val] v.now) s = .next m
          else m = s) ∧ serviceRun v rest m t

/-- From `s`, the press event and APPLYSW on the current bank for each index of the list whose bit is 1 in `old` and
0 in `new`, in order, leads to `t` (40_input_decoder.md R150). -/
def pressRun (old new : BitVec 16) : List (Fin Config.nSw) → State → State → Prop
  | [], s, t => t = s
  | i :: rest, s, t =>
    ∃ m, (if old.getLsbD i.val = true ∧ new.getLsbD i.val = false then
            exec (.applysw (BitVec.ofNat 8 i.val) (BitVec.ofNat 8 s.currentBank.val))
              (s.emit (.switchChanged i)) = .next m
          else m = s) ∧ pressRun old new rest m t

end Sys2Proof.Machine

namespace Sys2Proof

/-- The instructions through which a quadrature channel is sampled (10_state.md R21). -/
def Instr.samples : Instr → Bool
  | .qcode0000 _ _ | .qcode0001 _ _ | .qcode0010 _ _ | .qcode0011 _ _ => true
  | .qcode0100 _ _ | .qcode0101 _ _ | .qcode0110 _ _ | .qcode0111 _ _ => true
  | .qcode1000 _ _ | .qcode1001 _ _ | .qcode1010 _ _ | .qcode1011 _ _ => true
  | .qcode1100 _ _ | .qcode1101 _ _ | .qcode1110 _ _ | .qcode1111 _ _ => true
  | .qsample _ _ _ | .navenc _ _ | .turncw _ _ _ | .turnccw _ _ _ => true
  | _ => false

/-- The instructions that carry a SysEx frame of type 05, the transport frame (43_inbound_sysex.md R254). XPORT8 is the
payload of one (log 3). -/
def Instr.carriesTransport : Instr → Bool
  | .sxT05 _ _ _ | .xport8 _ => true
  | .sx t _ _ _ => decide (t = 0x05)
  | .rxsysex bytes | .sxMalformed bytes => decide (bytes[4]? = some 0x05)
  | _ => false

/-- The message an ENQ hands over (42_outbound.md R201). -/
def Instr.sent : Instr → Option Msg
  | .enq m => some m
  | _ => none

/-- The bytes a TX row puts on the wire itself, past the queue (42_outbound.md R210 to R216; log 3). -/
def Instr.puts : Instr → List Byte
  | .txControlChange c k v => [0xB#4 ++ c, 0#1 ++ k, 0#1 ++ v]
  | .txNoteOn c n v => [0x9#4 ++ c, 0#1 ++ n, 0#1 ++ v]
  | .txNoteOff c n v => [0x8#4 ++ c, 0#1 ++ n, 0#1 ++ v]
  | .txPitchBend c l m => [0xE#4 ++ c, 0#1 ++ l, 0#1 ++ m]
  | .txRealtime b => [b]
  | .txSysEx bytes => bytes
  | _ => []

end Sys2Proof
end

