-- ==== Sys2Proof/Certificates/Slice0/Obligations.lean ====
section
/-! DEFINITION. The statements for the provers, each with the rule of spec/ it formalises. A completion statement says
with an equation what the next state is: whatever it does not name is unchanged. Where a statement has a value of
00_scope.md R9 written out (a number, the capacity 32, the name lengths 4 and 5, the frame prefix), it holds under the
parameters that hold R9's values, `s.cfg.valued = Config.r9`; right after reset they do, and every step keeps them. -/

open Sys2Proof Sys2Proof.Machine

/-! ## Decoding, fetching, reset -/

/-- Decode and encode agree, for every well-formed instruction. -/
def Obligations.DecodeEncodeAgree : Prop :=
  ∀ i : Instr, i.wellFormed = true → decode (encode i) = .ok i

/-- Transactions written out from 30_encoding.md and from the programs of 95_test_vectors.md decode to what they stand
for. The model's choice are the operand bytes of the command port (log 2), and on the QCODE and PKT4 ports the bytes
after the code and after the four packet bytes of R93: a channel byte and the four bytes of `now` (log 3). -/
def Obligations.WrittenWordsDecode : Prop :=
  decode ⟨.op, [0x10, 0x00, 0x01, 0x00, 0x00, 0x03, 0xE8]⟩ = .ok (.qsample 0 0b01 1000) ∧
  decode ⟨.op, [0x13, 0xFE, 0xFB, 0x00, 0x00, 0x00, 0x3C]⟩ = .ok (.swpoll 0xFEFB 60) ∧
  decode ⟨.op, [0x20, 0x00, 0x01, 0x00]⟩ = .ok (.applystep 0 1 0) ∧
  decode ⟨.op, [0x23, 0x01]⟩ = .ok (.setbank 1) ∧
  decode ⟨.op, [0x31]⟩ = .ok .drain ∧
  decode ⟨.qcode, [0b1101, 0x03, 0x00, 0x00, 0x04, 0xB0]⟩ = .ok (.qcode1101 3 1200) ∧
  decode ⟨.pkt4, [0x0F, 0xFA, 0x00, 0x00, 0x00, 0x00, 0x07, 0xD0]⟩ = .ok (.pktRtFA 0 0 0 2000) ∧
  decode ⟨.qf8, [0x76]⟩ = .ok (.qfP7 0 6) ∧
  decode ⟨.sysex, [0xF0, 0x00, 0x21, 0x7B, 0x02, 0x03, 0x00, 0x40, 0xF7]⟩ = .ok (.sxT02 3 0 [0x40]) ∧
  decode ⟨.cv3, [0xB0, 0x07, 0x68]⟩ = .ok (.txControlChange 0 7 104) ∧
  decode ⟨.rgb565, [0xF8, 0x1F]⟩ = .ok (.rgb565 31 0 31)

/-- A step runs the instruction decoded: of the transaction presented next when no reset, no edge and no service comes
before it, and of a table word placed by `withFetchWord` (log 1). An edge on `irq[h]` whose time has come is FLAGSET h,
even between the steps of a service; that the edges to come stand in the inputs is the model's choice (log 6). -/
def Obligations.StepRunsTheDecodedInstruction : Prop :=
  (∀ (s : State) (x : Xact) (rest : List Xact) (i : Instr),
    s.inp.rst = 0 → s.svc = none → (∀ e es, s.inp.irq = e :: es → e.after ≠ 0) →
    s.inp.inbox = x :: rest → decode x = .ok i →
    step s = exec i { s with inp := { s.inp with inbox := rest, irq := tickEdges s.inp.irq } }) ∧
  (∀ (s : State) (nbits w : Nat) (i : Instr), decodeTableWord nbits w = some i →
    step (s.withFetchWord nbits w) = exec i { s with svc := none, inp := { s.inp with rst := 0 } }) ∧
  (∀ (e : Edge) (es : List Edge) (s : State), s.inp.rst = 0 → s.inp.irq = e :: es → e.after = 0 →
    step s = exec (.flagset e.line) { s with inp := { s.inp with irq := es } })

/-- R340, R341: with the reset input asserted one step puts every field of the block at its reset value, accepts no
operation and loses an edge that falls; and a block with nothing presented does nothing. What it says of the model's own
fields `svc`, `out`, `cfg` and `inp` is the model's choice (log 6, 8, 9, 16, 19). -/
def Obligations.HardwareResetAndIdle : Prop :=
  (∀ s : State, s.inp.rst ≠ 0 → ∃ t, step s = .next t ∧
    (∀ ch, t.chan ch = { phase := 0b00, acc := 0, tLast := 0 }) ∧
    t.accelEn = s.cfg.accelDef ∧
    t.ready = List.replicate s.ready.length false ∧
    t.sw = { snap := 0xFFFF, tPoll := 0 } ∧ t.btn = { snap := 0xFFFF, tPoll := 0 } ∧ t.navPoll = 0 ∧
    t.nb = { raw := true, stable := true, tChange := 0 } ∧
    (∀ b k, t.slot b k = s.cfg.defaults.at b k) ∧
    (s.cfg.wf → ∀ b k, (t.slot b k).minValue = 0 ∧ (t.slot b k).maxValue = 127) ∧
    t.currentBank = 0 ∧ t.oq.head = 0 ∧ t.oq.count = 0 ∧
    t.errorCount = 0 ∧ t.sysexCount = 0 ∧
    t.mtc = { hours := 0, minutes := 0, seconds := 0, frames := 0, running := false, valid := false } ∧
    t.xp = { playing := false, recording := false, paused := false } ∧
    t.lastSense = 0 ∧ t.svc = none ∧
    t.out = s.out ∧ t.cfg = s.cfg ∧ t.inp.inbox = s.inp.inbox ∧
    (∀ e es, s.inp.irq = e :: es → e.after = 0 → t.inp.irq = es)) ∧
  (∀ s : State, s.inp.rst = 0 → s.inp.irq = [] → s.svc = none → s.inp.inbox = [] → step s = .next s)

/-- The invariant holds right after reset, with the fixture's parameters and with any that are legal. -/
def Obligations.ResetMeetsTheInvariant : Prop :=
  BlockInv State.reset ∧
  ∀ (cfg : Config.Params) (halves : Nat) (out : Outputs) (inp : Inputs), cfg.wf → BlockInv (State.initial cfg halves out inp)

/-- Every step keeps the invariant, from every state that has it. -/
def Obligations.EveryStepKeepsTheInvariant : Prop :=
  ∀ s t : State, BlockInv s → step s = .next t → BlockInv t

/-! ## The input decoder -/

/-- R92: the direction table, eight codes non-zero and eight zero. -/
def Obligations.DirectionTable : Prop :=
  (∀ c ∈ [0b1101#4, 0b0100#4, 0b0010#4, 0b1011#4], dirOf c = 1) ∧
  (∀ c ∈ [0b1110#4, 0b0111#4, 0b0001#4, 0b1000#4], dirOf c = -1) ∧
  (∀ c ∈ [0b0000#4, 0b0011#4, 0b0101#4, 0b0110#4, 0b1001#4, 0b1010#4, 0b1100#4, 0b1111#4], dirOf c = 0) ∧
  (∀ c : BitVec 4, c ∈ positiveCodes ∨ c ∈ negativeCodes ∨ c ∈ idleCodes)

/-- R132, R133: a code of direction 0 changes nothing but the phase, and every QSAMPLE stores the new phase. -/
def Obligations.QsampleWithoutTransition : Prop :=
  (∀ (ch : Fin 17) (ph : BitVec 2) (now : Time) (s : State), codeOf (s.chan ch).phase ph ∈ idleCodes →
    exec (.qsample ch ph now) s = .next (s.setChan ch { s.chan ch with phase := ph })) ∧
  (∀ (ch : Fin 17) (ph : BitVec 2) (now : Time) (s : State),
    ∃ t, exec (.qsample ch ph now) s = .next t ∧ (t.chan ch).phase = ph)

/-- R131, R134 to R136, R138 for the two directions, with the coupling of R171. That a QSAMPLE issued alone carries its
coupling with it is the model's reading (log 7). -/
def Obligations.QsampleOfATransition : Prop :=
  ∀ (ch : Fin 17) (ph : BitVec 2) (now : Time) (s : State), s.cfg.valued = Config.r9 →
    (codeOf (s.chan ch).phase ph ∈ positiveCodes →
      ∃ t, exec (.qsample ch ph now) s = .next t ∧ transitionTo ch 1 ph now s t) ∧
    (codeOf (s.chan ch).phase ph ∈ negativeCodes →
      ∃ t, exec (.qsample ch ph now) s = .next t ∧ transitionTo ch (-1) ph now s t)

/-- The eight QCODE rows of direction 0 move the phase to their bits 1 to 0 and do nothing else. That a row hands its own
code to the channel is the model's choice (log 3). -/
def Obligations.QcodeRowsWithoutTransition : Prop :=
  ∀ (ch : Fin 17) (now : Time) (s : State),
    exec (.qcode0000 ch now) s = .next (s.setChan ch { s.chan ch with phase := 0b00 }) ∧
    exec (.qcode0011 ch now) s = .next (s.setChan ch { s.chan ch with phase := 0b11 }) ∧
    exec (.qcode0101 ch now) s = .next (s.setChan ch { s.chan ch with phase := 0b01 }) ∧
    exec (.qcode0110 ch now) s = .next (s.setChan ch { s.chan ch with phase := 0b10 }) ∧
    exec (.qcode1001 ch now) s = .next (s.setChan ch { s.chan ch with phase := 0b01 }) ∧
    exec (.qcode1010 ch now) s = .next (s.setChan ch { s.chan ch with phase := 0b10 }) ∧
    exec (.qcode1100 ch now) s = .next (s.setChan ch { s.chan ch with phase := 0b00 }) ∧
    exec (.qcode1111 ch now) s = .next (s.setChan ch { s.chan ch with phase := 0b11 })

/-- The eight QCODE rows with a direction make that transition, with its coupling (log 3, log 7). -/
def Obligations.QcodeRowsOfATransition : Prop :=
  ∀ (ch : Fin 17) (now : Time) (s : State), s.cfg.valued = Config.r9 →
    (∃ t, exec (.qcode0001 ch now) s = .next t ∧ transitionTo ch (-1) 0b01 now s t) ∧
    (∃ t, exec (.qcode0010 ch now) s = .next t ∧ transitionTo ch 1 0b10 now s t) ∧
    (∃ t, exec (.qcode0100 ch now) s = .next t ∧ transitionTo ch 1 0b00 now s t) ∧
    (∃ t, exec (.qcode0111 ch now) s = .next t ∧ transitionTo ch (-1) 0b11 now s t) ∧
    (∃ t, exec (.qcode1000 ch now) s = .next t ∧ transitionTo ch (-1) 0b00 now s t) ∧
    (∃ t, exec (.qcode1011 ch now) s = .next t ∧ transitionTo ch 1 0b11 now s t) ∧
    (∃ t, exec (.qcode1101 ch now) s = .next t ∧ transitionTo ch 1 0b01 now s t) ∧
    (∃ t, exec (.qcode1110 ch now) s = .next t ∧ transitionTo ch (-1) 0b10 now s t)

/-- R137, R138 (an inference the spec marks as its own): the accumulator lies in −3 to +3 after reset and after every
QSAMPLE, and an event emitted has one of the six steps. -/
def Obligations.AccumulatorBound : Prop :=
  (∀ ch, ((State.reset).chan ch).acc = 0) ∧
  ∀ (ch k : Fin 17) (ph : BitVec 2) (now : Time) (s t : State), s.cfg.valued = Config.r9 →
    exec (.qsample ch ph now) s = .next t →
    ((-3 ≤ (s.chan k).acc.toInt ∧ (s.chan k).acc.toInt ≤ 3) → -3 ≤ (t.chan k).acc.toInt ∧ (t.chan k).acc.toInt ≤ 3) ∧
    (t.out.events = s.out.events ∨
      ∃ delta ∈ [(-4 : Int), -2, -1, 1, 2, 4],
        t.out.events = s.out.events ++
          [if h : ch.val < 16 then .encoderStep ⟨ch.val, h⟩ delta else .navEncoderStep delta])

/-- R121: TURNCW and TURNCCW are four QSAMPLEs each. -/
def Obligations.TurnsAreFourSamples : Prop :=
  ∀ (ch : Fin 17) (t0 dt : Time) (s : State),
    (∃ t, exec (.turncw ch t0 dt) s = .next t ∧
      execAll [.qsample ch 0b01 t0, .qsample ch 0b00 (t0 + dt), .qsample ch 0b10 (t0 + 2 * dt),
        .qsample ch 0b11 (t0 + 3 * dt)] s = .next t) ∧
    (∃ t, exec (.turnccw ch t0 dt) s = .next t ∧
      execAll [.qsample ch 0b10 t0, .qsample ch 0b00 (t0 + dt), .qsample ch 0b01 (t0 + 2 * dt),
        .qsample ch 0b11 (t0 + 3 * dt)] s = .next t)

/-- R139, with the reading of 90_conflicts.md C1: with acceleration off and an empty accumulator, transitions of one
direction emit one event of magnitude 1 for every four of them, whatever the times; the rest stay in the accumulator. -/
def Obligations.AccelerationOffOneEventPerCycle : Prop :=
  (∀ (ch : Fin 17) (ps : List (BitVec 2 × Time)) (s : State), s.cfg.valued = Config.r9 → s.accelEn = false →
    (s.chan ch).acc = 0 → oneWay positiveCodes (s.chan ch).phase ps →
    ∃ t, execAll (ps.map (fun p => .qsample ch p.1 p.2)) s = .next t ∧
      t.out.events = s.out.events ++ List.replicate (ps.length / 4) (stepEvent ch 1) ∧
      (t.chan ch).acc.toInt = (ps.length % 4 : Nat)) ∧
  (∀ (ch : Fin 17) (ps : List (BitVec 2 × Time)) (s : State), s.cfg.valued = Config.r9 → s.accelEn = false →
    (s.chan ch).acc = 0 → oneWay negativeCodes (s.chan ch).phase ps →
    ∃ t, execAll (ps.map (fun p => .qsample ch p.1 p.2)) s = .next t ∧
      t.out.events = s.out.events ++ List.replicate (ps.length / 4) (stepEvent ch (-1)) ∧
      (t.chan ch).acc.toInt = -((ps.length % 4 : Nat) : Int))

/-- R141: SETACCEL writes the enable and nothing else. -/
def Obligations.SetaccelWritesTheEnable : Prop :=
  ∀ (en : Bool) (s : State), exec (.setaccel en) s = .next { s with accelEn := en }

/-- R144, R145: FLAGSET sets its flag, a flag already set stays, FLAGCLR clears its flag; nothing else changes. -/
def Obligations.FlagOperations : Prop :=
  (∀ (h : Nat) (s : State), h < s.ready.length → exec (.flagset h) s = .next { s with ready := s.ready.set h true }) ∧
  (∀ (h : Nat) (s : State), s.ready.getD h false = true → exec (.flagset h) s = .next s) ∧
  (∀ (h : Nat) (s : State), h < s.ready.length → exec (.flagclr h) s = .next { s with ready := s.ready.set h false })

/-- R146 in the model's three steps (log 6): step 1 tests the flag; step 2 runs QSAMPLE, with its coupling, on the
channels of the half, ascending; step 3 clears the flag. -/
def Obligations.EncserviceRunsInThreeSteps : Prop :=
  (∀ (h : Nat) (ph : Vector (BitVec 2) 16) (now : Time) (s : State), h < s.ready.length →
    s.ready.getD h false = false → exec (.encservice h ph now) s = .next s) ∧
  (∀ (h : Nat) (ph : Vector (BitVec 2) 16) (now : Time) (s : State), h < s.ready.length →
    s.ready.getD h false = true →
    exec (.encservice h ph now) s = .next { s with svc := some { half := h, ph := ph, now := now, stage := .sample } }) ∧
  (∀ (v : Service) (s : State), s.inp.rst = 0 → (∀ e es, s.inp.irq = e :: es → e.after ≠ 0) → s.svc = some v →
    v.stage = .sample →
    ∃ u, serviceRun v mainIndices { s with inp := { s.inp with irq := tickEdges s.inp.irq } } u ∧
      step s = .next { u with svc := some { v with stage := .clear } }) ∧
  (∀ (v : Service) (s : State), s.inp.rst = 0 → (∀ e es, s.inp.irq = e :: es → e.after ≠ 0) → s.svc = some v →
    v.stage = .clear →
    step s = .next { s with svc := none, ready := s.ready.set v.half false,
                            inp := { s.inp with irq := tickEdges s.inp.irq } })

/-- R350 (an inference the spec marks as its own): an edge of the half in service that falls after step 2 and before
step 3 is wiped by the clear, and no sample is decoded for it. -/
def Obligations.EdgeBeforeTheClearIsLost : Prop :=
  ∀ (v : Service) (s : State), s.inp.rst = 0 → s.svc = some v → v.stage = .sample → v.half < s.ready.length →
    s.inp.irq = [{ after := 1, line := v.half }] →
    ∃ t1 t2 t3, step s = .next t1 ∧ step t1 = .next t2 ∧ step t2 = .next t3 ∧
      t2.ready.getD v.half false = true ∧ t3.ready.getD v.half true = false ∧
      t3.q = t1.q ∧ t3.svc = none ∧ t3.inp.irq = []

/-- R151: a SWPOLL less than 50 time units after the last accepted one changes nothing; any other is accepted and its
time is stored. -/
def Obligations.SwpollGate : Prop :=
  (∀ (snap : BitVec 16) (now : Time) (s : State), s.cfg.valued = Config.r9 → (now - s.sw.tPoll).toNat < 50 →
    exec (.swpoll snap now) s = .next s) ∧
  (∀ (snap : BitVec 16) (now : Time) (s : State), s.cfg.valued = Config.r9 → 50 ≤ (now - s.sw.tPoll).toNat →
    ∃ t, exec (.swpoll snap now) s = .next t ∧ t.sw = { snap := snap, tPoll := now })

/-- R150, R152: a SWPOLL within the gate does nothing; an accepted one raises, for each bit that was 1 and is 0 and in
ascending order, its event and its APPLYSW on the current bank, then replaces the snapshot; nothing else changes. -/
def Obligations.SwpollAccepted : Prop :=
  (∀ (snap : BitVec 16) (now : Time) (s : State), s.cfg.valued = Config.r9 → (now - s.sw.tPoll).toNat < 50 →
    exec (.swpoll snap now) s = .next s) ∧
  (∀ (snap : BitVec 16) (now : Time) (s : State), s.cfg.valued = Config.r9 → 50 ≤ (now - s.sw.tPoll).toNat →
    ∃ u, pressRun s.sw.snap snap switchIndices { s with sw := { s.sw with tPoll := now } } u ∧
      exec (.swpoll snap now) s = .next { u with sw := { snap := snap, tPoll := now } })

/-- R153: BTNPOLL, rejected and accepted. -/
def Obligations.BtnpollGateAndEvents : Prop :=
  (∀ (snap : BitVec 16) (now : Time) (s : State), s.cfg.valued = Config.r9 → (now - s.btn.tPoll).toNat < 50 →
    exec (.btnpoll snap now) s = .next s) ∧
  (∀ (snap : BitVec 16) (now : Time) (s : State), s.cfg.valued = Config.r9 → 50 ≤ (now - s.btn.tPoll).toNat →
    exec (.btnpoll snap now) s =
      .next { s with
        btn := { snap := snap, tPoll := now }
        out := { s.out with events := s.out.events ++
          (([0, 1, 2, 3, 4] : List (Fin 5)).filter
            (fun i => s.btn.snap.getLsbD i.val && !snap.getLsbD i.val)).map Event.buttonChanged } })

/-- The value-format rows do what their format carries: SNAP16 is the poll of its port, RGB565 answers its three
zero-filled bytes, XPORT8 is the transport frame whose payload it is: counted, it overwrites the three flags. That the rows
are executed, and XPORT8 so, is the model's choice (log 3). -/
def Obligations.ValueFormatRows : Prop :=
  (∀ (snap : BitVec 16) (now : Time) (s : State),
    (∃ t, exec (.snap16 false snap now) s = .next t ∧ exec (.swpoll snap now) s = .next t) ∧
    (∃ t, exec (.snap16 true snap now) s = .next t ∧ exec (.btnpoll snap now) s = .next t)) ∧
  (∀ (r : BitVec 5) (g : BitVec 6) (b : BitVec 5) (s : State),
    exec (.rgb565 r g b) s = .next (s.ret (.rgb (r ++ 0#3) (g ++ 0#2) (b ++ 0#3)))) ∧
  (∀ (b : Byte) (s : State), s.cfg.valued = Config.r9 → exec (.xport8 b) s =
    .next { s with
      sysexCount := s.sysexCount + 1
      xp := { playing := b.getLsbD s.cfg.xportPlay.val, recording := b.getLsbD s.cfg.xportRec.val,
              paused := b.getLsbD s.cfg.xportPause.val } })

/-- R156: NAVENC is QSAMPLE on channel 16 behind a gate of 2 time units. -/
def Obligations.NavencIsAGatedSample : Prop :=
  (∀ (ph : BitVec 2) (now : Time) (s : State), s.cfg.valued = Config.r9 → (now - s.navPoll).toNat < 2 →
    exec (.navenc ph now) s = .next s) ∧
  (∀ (ph : BitVec 2) (now : Time) (s : State), s.cfg.valued = Config.r9 → 2 ≤ (now - s.navPoll).toNat →
    ∃ t, exec (.navenc ph now) s = .next t ∧ exec (.qsample 16 ph now) { s with navPoll := now } = .next t)

/-- R160: the navigation button, its window and its event. -/
def Obligations.NavbtnConfirmsAPress : Prop :=
  ∀ (lvl : Bool) (now : Time) (s : State), s.cfg.valued = Config.r9 →
    (lvl ≠ s.nb.raw → exec (.navbtn lvl now) s = .next { s with nb := { s.nb with raw := lvl, tChange := now } }) ∧
    (lvl = s.nb.raw → s.nb.raw ≠ s.nb.stable → 50 ≤ (now - s.nb.tChange).toNat →
      exec (.navbtn lvl now) s =
        .next { s with
          nb := { s.nb with stable := lvl }
          out := { s.out with events := s.out.events ++ (if lvl then [] else [Event.navButtonPressed]) } }) ∧
    (lvl = s.nb.raw → (s.nb.raw = s.nb.stable ∨ (now - s.nb.tChange).toNat < 50) →
      exec (.navbtn lvl now) s = .next s)

/-! ## The bank state -/

/-- R172 to R175: out of range APPLYSTEP does nothing; in range it steps and clamps the slot's local value and hands
exactly one message to ENQ. -/
def Obligations.ApplystepStepsAndSends : Prop :=
  (∀ (index : Byte) (delta : BitVec 8) (bank : Byte) (s : State), (16 ≤ index.toNat ∨ 4 ≤ bank.toNat) →
    exec (.applystep index delta bank) s = .next s) ∧
  ∀ (index : Byte) (delta : BitVec 8) (bank : Byte) (s : State) (hi : index.toNat < 16) (hb : bank.toNat < 4),
    s.cfg.valued = Config.r9 →
    (s.slot ⟨bank.toNat, hb⟩ ⟨index.toNat, hi⟩).minValue.toNat ≤
      (s.slot ⟨bank.toNat, hb⟩ ⟨index.toNat, hi⟩).maxValue.toNat →
    let x := s.slot ⟨bank.toNat, hb⟩ ⟨index.toNat, hi⟩
    ∃ (v : BitVec 7) (m : Msg),
      (v.toNat : Int) = max (x.minValue.toNat : Int) (min x.maxValue.toNat (x.localValue.toNat + delta.toInt)) ∧
      (x.controlType = .cc → m = .controlChange x.channelNo x.controlNumber.toNat v.toNat) ∧
      (x.controlType = .note → 0 < delta.toInt → m = .noteOn x.channelNo x.controlNumber.toNat s.cfg.noteOnVel.toNat) ∧
      (x.controlType = .note → delta.toInt ≤ 0 → m = .noteOff x.channelNo x.controlNumber.toNat 0) ∧
      (x.controlType = .pitchBend → m = .pitchBend x.channelNo (129 * (v.toNat : Int) - 8192)) ∧
      exec (.applystep index delta bank) s =
        .next (afterEnq m (s.setSlot ⟨bank.toNat, hb⟩ ⟨index.toNat, hi⟩ { x with localValue := v }))

/-- R177: after APPLYSTEP the local value lies between the bounds, for every step and every starting value. -/
def Obligations.ApplystepStaysInBounds : Prop :=
  ∀ (index : Byte) (delta : BitVec 8) (bank : Byte) (s : State) (hi : index.toNat < 16) (hb : bank.toNat < 4),
    (s.slot ⟨bank.toNat, hb⟩ ⟨index.toNat, hi⟩).minValue.toNat ≤
      (s.slot ⟨bank.toNat, hb⟩ ⟨index.toNat, hi⟩).maxValue.toNat →
    ∃ t, exec (.applystep index delta bank) s = .next t ∧
      (t.slot ⟨bank.toNat, hb⟩ ⟨index.toNat, hi⟩).minValue.toNat ≤
        (t.slot ⟨bank.toNat, hb⟩ ⟨index.toNat, hi⟩).localValue.toNat ∧
      (t.slot ⟨bank.toNat, hb⟩ ⟨index.toNat, hi⟩).localValue.toNat ≤
        (t.slot ⟨bank.toNat, hb⟩ ⟨index.toNat, hi⟩).maxValue.toNat

/-- R178: switches 0 to 7 toggle mute and send controller 120 + index; switches 8 to 15 toggle solo of the track eight
below and send controller 110 + track; out of range APPLYSW does nothing. -/
def Obligations.ApplyswToggles : Prop :=
  (∀ (sw bank : Byte) (s : State), (16 ≤ sw.toNat ∨ 4 ≤ bank.toNat) → exec (.applysw sw bank) s = .next s) ∧
  (∀ (t : Fin 8) (b : Fin 4) (s : State), s.cfg.valued = Config.r9 →
    let k : Fin 16 := ⟨t.val, by omega⟩
    let x := s.slot b k
    exec (.applysw (BitVec.ofNat 8 t.val) (BitVec.ofNat 8 b.val)) s =
      .next (afterEnq (.controlChange x.channelNo (120 + t.val) (if x.mute then 0 else 127))
        (s.setSlot b k { x with mute := !x.mute }))) ∧
  (∀ (t : Fin 8) (b : Fin 4) (s : State), s.cfg.valued = Config.r9 →
    let k : Fin 16 := ⟨t.val, by omega⟩
    let x := s.slot b k
    exec (.applysw (BitVec.ofNat 8 (8 + t.val)) (BitVec.ofNat 8 b.val)) s =
      .next (afterEnq (.controlChange x.channelNo (110 + t.val) (if x.solo then 0 else 127))
        (s.setSlot b k { x with solo := !x.solo })))

/-- R61: a bank or track operand out of range selects nothing, and the operation does nothing; SLOTREAD returns
nothing. That CFGWRITE does nothing there also with a value R192 would refuse is the order the model reads (log 12). -/
def Obligations.BankOperandsOutOfRange : Prop :=
  ∀ (bank track : Byte) (s : State), ¬(bank.toNat < 4 ∧ track.toNat < 16) →
    (∀ delta, exec (.applystep track delta bank) s = .next s) ∧
    exec (.applysw track bank) s = .next s ∧
    (∀ value color name, exec (.dawsync track bank value color name) s = .next s) ∧
    exec (.resetslot bank track) s = .next s ∧
    exec (.slotread bank track) s = .next (s.ret (.slot none)) ∧
    (∀ edit, exec (.cfgwrite bank track edit) s = .next s) ∧
    (4 ≤ bank.toNat → exec (.setbank bank) s = .next s)

/-- R180 to R183: out of range DAWSYNC does nothing; it stores the fields present in any bank, of a name its first four
bytes (R184); on the current bank it also mirrors the clamped value and raises one Dirty; it sends nothing. -/
def Obligations.DawsyncStoresAndMirrors : Prop :=
  (∀ (track bank : Byte) (value : Option Byte) (color : Option (BitVec 16)) (name : Option (List Byte)) (s : State),
    (16 ≤ track.toNat ∨ 4 ≤ bank.toNat) → exec (.dawsync track bank value color name) s = .next s) ∧
  ∀ (b : Fin 4) (k : Fin 16) (value : Option Byte) (color : Option (BitVec 16)) (name : Option (List Byte)) (s : State),
    s.cfg.valued = Config.r9 → (s.slot b k).minValue.toNat ≤ (s.slot b k).maxValue.toNat →
    let x := { s.slot b k with
      dawValue := value.getD (s.slot b k).dawValue
      trackColor := color.getD (s.slot b k).trackColor
      trackName := (name.map (List.take 4)).getD (s.slot b k).trackName }
    (b ≠ s.currentBank →
      exec (.dawsync (BitVec.ofNat 8 k.val) (BitVec.ofNat 8 b.val) value color name) s = .next (s.setSlot b k x)) ∧
    (b = s.currentBank → ∃ v : BitVec 7,
      (value = none → v = x.localValue) ∧
      (∀ w, value = some w → (v.toNat : Int) = max (x.minValue.toNat : Int) (min x.maxValue.toNat w.toNat)) ∧
      exec (.dawsync (BitVec.ofNat 8 k.val) (BitVec.ofNat 8 b.val) value color name) s =
        .next ((s.setSlot b k { x with localValue := v }).notify (.dirty k)))

/-- R185, R186: SETBANK moves the selector and does nothing else. -/
def Obligations.SetbankSwitchesTheWindow : Prop :=
  (∀ (b : Fin 4) (s : State), exec (.setbank (BitVec.ofNat 8 b.val)) s = .next { s with currentBank := b }) ∧
  (∀ (bank : Byte) (s : State), 4 ≤ bank.toNat → exec (.setbank bank) s = .next s)

/-- R188, R189: RESETSLOT and RESETALL restore the compiled-in slots and nothing else. -/
def Obligations.ResetsRestoreTheDefaults : Prop :=
  (∀ (b : Fin 4) (k : Fin 16) (s : State),
    exec (.resetslot (BitVec.ofNat 8 b.val) (BitVec.ofNat 8 k.val)) s =
      .next (s.setSlot b k (s.cfg.defaults.at b k))) ∧
  (∀ (bank track : Byte) (s : State), (4 ≤ bank.toNat ∨ 16 ≤ track.toNat) →
    exec (.resetslot bank track) s = .next s) ∧
  (∀ s : State, ∃ t, exec .resetall s = .next t ∧ (∀ b k, t.slot b k = s.cfg.defaults.at b k) ∧
    t = { s with slots := t.slots })

/-- R190: SLOTREAD returns a copy of the slot and changes nothing; and the copy is not affected by later operations, since
every instruction and every step, a reset among them, keeps what the four output streams already hold, as it keeps the
parameters and the number of flags. That the streams and the parameters stand in the state is the model's choice (log 8, log 9,
log 22). -/
def Obligations.SlotreadReturnsACopy : Prop :=
  (∀ (b : Fin 4) (k : Fin 16) (s : State),
    exec (.slotread (BitVec.ofNat 8 b.val) (BitVec.ofNat 8 k.val)) s = .next (s.ret (.slot (some (s.slot b k))))) ∧
  (∀ (bank track : Byte) (s : State), (4 ≤ bank.toNat ∨ 16 ≤ track.toNat) →
    exec (.slotread bank track) s = .next (s.ret (.slot none))) ∧
  (∀ (i : Instr) (s t : State), exec i s = .next t → Keeps s t) ∧
  (∀ s t : State, step s = .next t → Keeps s t)

/-- R191: CFGWRITE writes one field of a legal slot, each of the twelve, and nothing else. -/
def Obligations.CfgwriteWritesOneField : Prop :=
  ∀ (b : Fin 4) (k : Fin 16) (s : State), s.cfg.valued = Config.r9 → (s.slot b k).wf 4 →
    let x := s.slot b k
    let writes (e : CfgEdit) (y : Slot) : Prop :=
      exec (.cfgwrite (BitVec.ofNat 8 b.val) (BitVec.ofNat 8 k.val) e) s = .next (s.setSlot b k y)
    (∀ v : Fin 16, writes (.channel (v.val + 1)) { x with channel := v }) ∧
    (∀ v : BitVec 7, writes (.controlNumber v.toNat) { x with controlNumber := v }) ∧
    (∀ v, writes (.controlType v) { x with controlType := v }) ∧
    (∀ v, writes (.isPan v) { x with isPan := v }) ∧
    (∀ v : BitVec 7, x.minValue.toNat ≤ v.toNat → v.toNat ≤ x.maxValue.toNat →
      writes (.localValue v.toNat) { x with localValue := v }) ∧
    (∀ v : BitVec 7, v.toNat ≤ x.localValue.toNat → writes (.minValue v.toNat) { x with minValue := v }) ∧
    (∀ v : BitVec 7, x.localValue.toNat ≤ v.toNat → writes (.maxValue v.toNat) { x with maxValue := v }) ∧
    (∀ v, writes (.dawValue v) { x with dawValue := v }) ∧
    (∀ v, writes (.mute v) { x with mute := v }) ∧
    (∀ v, writes (.solo v) { x with solo := v }) ∧
    (∀ v, writes (.trackColor v) { x with trackColor := v }) ∧
    (∀ v : List Byte, v.length ≤ 4 → writes (.trackName v) { x with trackName := v })

/-- R192 with R61: out of the table CFGWRITE does nothing, whatever the edit; in it, a value out of range or an edit that
breaks the slot's invariant is refused. That the table comes first is the order the model reads (log 12). -/
def Obligations.CfgwriteRefusesBadEdits : Prop :=
  (∀ (bank track : Byte) (edit : CfgEdit) (s : State), (4 ≤ bank.toNat ∨ 16 ≤ track.toNat) →
    exec (.cfgwrite bank track edit) s = .next s) ∧
  (∀ (b : Fin 4) (k : Fin 16) (s : State), s.cfg.valued = Config.r9 →
    let x := s.slot b k
    let refuses (e : CfgEdit) : Prop :=
      exec (.cfgwrite (BitVec.ofNat 8 b.val) (BitVec.ofNat 8 k.val) e) s = .refused .editBreaksSlot
    (∀ v : Nat, (v = 0 ∨ 16 < v) → refuses (.channel v)) ∧
    (∀ v : Nat, 127 < v → refuses (.controlNumber v)) ∧
    (∀ v : Nat, (127 < v ∨ v < x.minValue.toNat ∨ x.maxValue.toNat < v) → refuses (.localValue v)) ∧
    (∀ v : Nat, (127 < v ∨ x.localValue.toNat < v) → refuses (.minValue v)) ∧
    (∀ v : Nat, (127 < v ∨ v < x.localValue.toNat) → refuses (.maxValue v)) ∧
    (∀ v : List Byte, 4 < v.length → refuses (.trackName v)))

/-- The model's choice for R196 (log 11): SERIALIZE returns a free blob of the bank table and the configuration;
DESERIALIZE restores both from a blob, each slot made legal, which leaves a legal slot as the blob holds it; and the blob
SERIALIZE returned in one state restores, in any state, the legal bank table and the configuration it was taken of. The last
rests on the named assumption of R196, `Config.BlobPair.roundTrip`. -/
def Obligations.SerializeAndDeserializeRun : Prop :=
  (∀ s : State, exec .serialize s = .next (s.ret (.blob (Config.blobOf
    { slots := s.slots, currentBank := s.currentBank, accelEn := s.accelEn })))) ∧
  (∀ (blob : List Byte) (s : State), ∃ t, exec (.deserialize blob) s = .next t ∧
    t = { s with slots := t.slots, currentBank := (Config.savedOf blob).currentBank,
                 accelEn := (Config.savedOf blob).accelEn } ∧
    (∀ b k, (t.slot b k).wf s.cfg.valued.nameVis ∧
      t.slot b k = legalSlot s.cfg.valued.nameVis ((Config.savedOf blob).slots.at b k))) ∧
  (∀ (n : Nat) (x : Slot), x.wf n → legalSlot n x = x) ∧
  (∀ s u : State, (∀ b k, (s.slot b k).wf u.cfg.valued.nameVis) →
    ∃ blob, exec .serialize s = .next (s.ret (.blob blob)) ∧
      exec (.deserialize blob) u =
        .next { u with slots := s.slots, currentBank := s.currentBank, accelEn := s.accelEn })

/-! ## The outbound side -/

/-- R201, R202: a message in the ranges of 10_state.md R31, tag by tag, joins the queue at its end and ENQ returns ok; on
a full queue it is dropped, the error counter grows and ENQ returns fail. The same by the model's test `msgWf`; and what fails
that test is refused. -/
def Obligations.EnqAppendsOrFails : Prop :=
  ∀ s : State, s.cfg.valued = Config.r9 →
    let taken (m : Msg) : Prop :=
      (s.oq.count.val < 32 → ∃ t, exec (.enq m) s = .next t ∧ t.oq.contents = s.oq.contents ++ [m] ∧
        t.oq = { mem := s.oq.mem.set ((s.oq.head.val + s.oq.count.val) % 32) m (Nat.mod_lt _ (by decide)),
                 head := s.oq.head, count := s.oq.count + 1 } ∧
        t = { s with oq := t.oq, out := { s.out with rets := s.out.rets ++ [.enq true] } }) ∧
      (s.oq.count.val = 32 → exec (.enq m) s =
        .next { s with errorCount := s.errorCount + 1, out := { s.out with rets := s.out.rets ++ [.enq false] } })
    (∀ c k v : Nat, 1 ≤ c → c ≤ 16 → k ≤ 127 → v ≤ 127 →
      taken (.controlChange c k v) ∧ taken (.noteOn c k v) ∧ taken (.noteOff c k v)) ∧
    (∀ (c : Nat) (v : Int), 1 ≤ c → c ≤ 16 → -8192 ≤ v → v ≤ 8191 → taken (.pitchBend c v)) ∧
    (∀ bytes : List Byte, bytes.length ≤ s.cfg.sysexMax → taken (.sysEx bytes)) ∧
    (∀ b : Byte, taken (.realtime b)) ∧
    (∀ m : Msg, msgWf s.cfg.sysexMax m = true → taken m) ∧
    (∀ m : Msg, msgWf s.cfg.sysexMax m = false → exec (.enq m) s = .refused .illFormedMessage)

/-- R203: the messages refused, variant by variant. -/
def Obligations.EnqRefusesIllFormed : Prop :=
  ∀ s : State,
    (∀ c k v : Nat, (c = 0 ∨ 16 < c ∨ 127 < k ∨ 127 < v) →
      exec (.enq (.controlChange c k v)) s = .refused .illFormedMessage ∧
      exec (.enq (.noteOn c k v)) s = .refused .illFormedMessage ∧
      exec (.enq (.noteOff c k v)) s = .refused .illFormedMessage) ∧
    (∀ (c : Nat) (v : Int), (c = 0 ∨ 16 < c ∨ v < -8192 ∨ 8191 < v) →
      exec (.enq (.pitchBend c v)) s = .refused .illFormedMessage) ∧
    (∀ bytes : List Byte, s.cfg.sysexMax < bytes.length →
      exec (.enq (.sysEx bytes)) s = .refused .illFormedMessage)

/-- R204: from an empty queue the first 32 of a list of ENQs succeed and every later one fails and is counted; the queue
then holds the first 32 messages. -/
def Obligations.CapacityLaw : Prop :=
  ∀ (msgs : List Msg) (s : State), s.cfg.valued = Config.r9 → (∀ m ∈ msgs, msgWf s.cfg.sysexMax m = true) → s.oq.count = 0 →
    ∃ t, execAll (msgs.map Instr.enq) s = .next t ∧
      t.oq.contents = msgs.take 32 ∧
      t = { s with
        oq := t.oq
        errorCount := s.errorCount + BitVec.ofNat 32 (msgs.length - 32)
        out := { s.out with rets := s.out.rets ++
          (List.replicate (min msgs.length 32) (Ret.enq true) ++ List.replicate (msgs.length - 32) (Ret.enq false)) } }

/-- R205 to R207: DRAIN takes the oldest message and writes all its bytes; on an empty queue it does nothing. That no cell of
the ring changes, so that the vacated one keeps the drained message, is the model's choice (log 10): R62 leaves that cell
unspecified. -/
def Obligations.DrainSendsTheOldest : Prop :=
  (∀ (m : Msg) (rest : List Msg) (s : State), s.oq.contents = m :: rest →
    ∃ t, exec .drain s = .next t ∧ t.oq.contents = rest ∧
      t.oq = { mem := s.oq.mem, head := s.oq.head + 1, count := s.oq.count - 1 } ∧
      t = { s with oq := t.oq, out := { s.out with wire := s.out.wire ++ serialise m } }) ∧
  (∀ s : State, s.oq.contents = [] → exec .drain s = .next s)

/-- R210 to R216: the bytes DRAIN writes for each variant of a well-formed message. -/
def Obligations.DrainWritesTheBytesOfEachVariant : Prop :=
  ∀ (m : Msg) (rest : List Msg) (s : State), s.oq.contents = m :: rest →
    ∃ t, exec .drain s = .next t ∧
      (∀ (c : Fin 16) (k v : BitVec 7), m = .controlChange (c.val + 1) k.toNat v.toNat →
        t.out.wire = s.out.wire ++ [0xB0 ||| BitVec.ofNat 8 c.val, k.setWidth 8, v.setWidth 8]) ∧
      (∀ (c : Fin 16) (n v : BitVec 7), m = .noteOn (c.val + 1) n.toNat v.toNat →
        t.out.wire = s.out.wire ++ [0x90 ||| BitVec.ofNat 8 c.val, n.setWidth 8, v.setWidth 8]) ∧
      (∀ (c : Fin 16) (n v : BitVec 7), m = .noteOff (c.val + 1) n.toNat v.toNat →
        t.out.wire = s.out.wire ++ [0x80 ||| BitVec.ofNat 8 c.val, n.setWidth 8, v.setWidth 8]) ∧
      (∀ (c : Fin 16) (hi lo : BitVec 7), m = .pitchBend (c.val + 1) (((hi ++ lo).toNat : Int) - 8192) →
        t.out.wire = s.out.wire ++ [0xE0 ||| BitVec.ofNat 8 c.val, lo.setWidth 8, hi.setWidth 8]) ∧
      (∀ bytes : List Byte, m = .sysEx bytes → t.out.wire = s.out.wire ++ bytes) ∧
      (∀ b : Byte, m = .realtime b → t.out.wire = s.out.wire ++ [b])

/-- The six TX rows put on the wire the bytes of their format and change nothing else (log 3). -/
def Obligations.TxRowsWriteTheirBytes : Prop :=
  ∀ s : State,
    (∀ (c : BitVec 4) (k v : BitVec 7),
      exec (.txControlChange c k v) s = .next (s.tx [0xB#4 ++ c, 0#1 ++ k, 0#1 ++ v])) ∧
    (∀ (c : BitVec 4) (n v : BitVec 7), exec (.txNoteOn c n v) s = .next (s.tx [0x9#4 ++ c, 0#1 ++ n, 0#1 ++ v])) ∧
    (∀ (c : BitVec 4) (n v : BitVec 7), exec (.txNoteOff c n v) s = .next (s.tx [0x8#4 ++ c, 0#1 ++ n, 0#1 ++ v])) ∧
    (∀ (c : BitVec 4) (l m : BitVec 7), exec (.txPitchBend c l m) s = .next (s.tx [0xE#4 ++ c, 0#1 ++ l, 0#1 ++ m])) ∧
    (∀ b : Byte, exec (.txRealtime b) s = .next (s.tx [b])) ∧
    (∀ bytes : List Byte, exec (.txSysEx bytes) s = .next (s.tx bytes))

/-- R63. Over any run of ENQs and DRAINs that completes, the messages ENQ accepted (those it answered ok) leave in the
order accepted, none lost, repeated or reordered: what was held and what was accepted is what went out, then what is held. The
same of every instruction, and of every step that is no reset, whoever hands messages to the queue: only DRAIN takes one, the
oldest, and only it and the TX rows put bytes on the wire. The TX rows and the steps of a service are the model's (log 3,
log 6). -/
def Obligations.FifoLaw : Prop :=
  (∀ (ops : List Instr) (s t : State), (∀ i ∈ ops, i = .drain ∨ ∃ m, i = .enq m) → execAll ops s = .next t →
    ∃ (answers : List Bool) (gone : List Msg),
      answers.length = (ops.filterMap Instr.sent).length ∧
      t.out.rets = s.out.rets ++ answers.map Ret.enq ∧
      s.oq.contents ++ (((ops.filterMap Instr.sent).zip answers).filter (·.2)).map (·.1) = gone ++ t.oq.contents ∧
      t.out.wire = s.out.wire ++ gone.flatMap serialise) ∧
  (∀ (i : Instr) (s t : State), exec i s = .next t →
    ∃ accepted gone : List Msg,
      s.oq.contents ++ accepted = gone ++ t.oq.contents ∧
      t.out.wire = s.out.wire ++ gone.flatMap serialise ++ i.puts ∧
      (i = .drain → accepted = [] ∧ gone = s.oq.contents.take 1) ∧ (i ≠ .drain → gone = [])) ∧
  (∀ s t : State, s.inp.rst = 0 → step s = .next t →
    ∃ (accepted gone : List Msg) (own : List Byte),
      s.oq.contents ++ accepted = gone ++ t.oq.contents ∧
      t.out.wire = s.out.wire ++ gone.flatMap serialise ++ own ∧
      (gone ≠ [] ∨ own ≠ [] → ∃ x i, s.inp.inbox = x :: t.inp.inbox ∧ decode x = .ok i ∧ i.puts = own ∧
        (gone ≠ [] → i = .drain ∧ accepted = [] ∧ gone = s.oq.contents.take 1)))

/-! ## Packets, realtime bytes, timebase -/

/-- R232, R233, and the realtime bytes F8, F9 and FD (R234, R284, R290): these packets change nothing. That a packet row is
executed, as the packet received, is the model's choice (log 3). -/
def Obligations.PacketsWithoutEffect : Prop :=
  ∀ (hi : BitVec 4) (status data1 data2 : Byte) (now : Time) (s : State),
    exec (.pktCv8 hi status data1 data2 now) s = .next s ∧ exec (.pktCv9 hi status data1 data2 now) s = .next s ∧
    exec (.pktCvA hi status data1 data2 now) s = .next s ∧ exec (.pktCvB hi status data1 data2 now) s = .next s ∧
    exec (.pktCvC hi status data1 data2 now) s = .next s ∧ exec (.pktCvD hi status data1 data2 now) s = .next s ∧
    exec (.pktCvE hi status data1 data2 now) s = .next s ∧
    (∀ cin : BitVec 4, cin.toNat < 8 → status ≠ 0xF1 →
      exec (.pktIgnored (hi ++ cin) status data1 data2 now) s = .next s) ∧
    (status.toNat < 0xF8 → status ≠ 0xF1 → exec (.pktIgnored (hi ++ 0xF#4) status data1 data2 now) s = .next s) ∧
    exec (.pktRtF8 hi data1 data2 now) s = .next s ∧ exec (.pktRtF9 hi data1 data2 now) s = .next s ∧
    exec (.pktRtFD hi data1 data2 now) s = .next s

/-- R231: the four ways of RXPKT, by code-index number and status, in this order of precedence. -/
def Obligations.RxpktDispatch : Prop :=
  ∀ (hi cin : BitVec 4) (status data1 data2 : Byte) (now : Time) (s : State),
    let run := exec (.rxpkt (hi ++ cin) status data1 data2 now) s
    if 8 ≤ cin.toNat ∧ cin.toNat ≤ 14 then run = .next s
    else if status = 0xF1 then ∃ t, run = .next t ∧ exec (.mtcqf data1) s = .next t
    else if cin = 0xF ∧ 0xF8 ≤ status.toNat then ∃ t, run = .next t ∧ exec (.rt status now) s = .next t
    else run = .next s

/-- R284 to R289: what each realtime status does, and that it does nothing else. -/
def Obligations.RealtimeActions : Prop :=
  ∀ (now : Time) (s : State),
    exec (.rt 0xFA now) s = .next { s with xp := { s.xp with playing := true, paused := false } } ∧
    exec (.rt 0xFB now) s = .next { s with xp := { s.xp with playing := true, paused := false } } ∧
    exec (.rt 0xFC now) s = .next { s with xp := { s.xp with playing := false, paused := false } } ∧
    exec (.rt 0xFE now) s = .next { s with lastSense := now } ∧
    exec (.rt 0xFF now) s =
      .next { s with
        mtc := { hours := 0, minutes := 0, seconds := 0, frames := 0, running := false, valid := false }
        xp := { playing := false, recording := false, paused := false } } ∧
    exec (.rt 0xF8 now) s = .next s ∧ exec (.rt 0xF9 now) s = .next s ∧ exec (.rt 0xFD now) s = .next s

/-- The realtime packet rows, RTBYTE and SYSRESET are the realtime operation of their status (R121, R234; log 3). -/
def Obligations.RealtimePacketsAct : Prop :=
  ∀ (hi : BitVec 4) (data1 data2 : Byte) (now : Time) (s : State),
    (∃ t, exec (.pktRtFA hi data1 data2 now) s = .next t ∧ exec (.rt 0xFA now) s = .next t) ∧
    (∃ t, exec (.pktRtFB hi data1 data2 now) s = .next t ∧ exec (.rt 0xFB now) s = .next t) ∧
    (∃ t, exec (.pktRtFC hi data1 data2 now) s = .next t ∧ exec (.rt 0xFC now) s = .next t) ∧
    (∃ t, exec (.pktRtFE hi data1 data2 now) s = .next t ∧ exec (.rt 0xFE now) s = .next t) ∧
    (∃ t, exec (.pktRtFF hi data1 data2 now) s = .next t ∧ exec (.rt 0xFF now) s = .next t) ∧
    (∀ b : Byte, 0xF8 ≤ b.toNat → ∃ t, exec (.rtbyte b now) s = .next t ∧ exec (.rt b now) s = .next t) ∧
    (∃ t, exec (.sysreset now) s = .next t ∧ exec (.rt 0xFF now) s = .next t)

/-- R273 to R276: pieces 0 to 6 replace one nibble of one field; `x` is bit 7 of the byte. -/
def Obligations.QuarterFramePieces : Prop :=
  ∀ (x : BitVec 1) (n : BitVec 4) (s : State),
    let low (f : Byte) : Byte := f.extractLsb' 4 4 ++ n
    let high (f : Byte) : Byte := n ++ f.extractLsb' 0 4
    exec (.mtcqf (quarterByte x 0 n)) s = .next { s with mtc := { s.mtc with frames := low s.mtc.frames } } ∧
    exec (.mtcqf (quarterByte x 1 n)) s = .next { s with mtc := { s.mtc with frames := high s.mtc.frames } } ∧
    exec (.mtcqf (quarterByte x 2 n)) s = .next { s with mtc := { s.mtc with seconds := low s.mtc.seconds } } ∧
    exec (.mtcqf (quarterByte x 3 n)) s = .next { s with mtc := { s.mtc with seconds := high s.mtc.seconds } } ∧
    exec (.mtcqf (quarterByte x 4 n)) s = .next { s with mtc := { s.mtc with minutes := low s.mtc.minutes } } ∧
    exec (.mtcqf (quarterByte x 5 n)) s = .next { s with mtc := { s.mtc with minutes := high s.mtc.minutes } } ∧
    exec (.mtcqf (quarterByte x 6 n)) s = .next { s with mtc := { s.mtc with hours := low s.mtc.hours } }

/-- R277 to R281: piece 7 writes the hours bit and `running`, then tests the assembled time. -/
def Obligations.QuarterFramePieceSeven : Prop :=
  ∀ (x : BitVec 1) (n : BitVec 4) (s : State), s.cfg.valued = Config.r9 →
    let hours : Byte := 0#3 ++ n.extractLsb' 0 1 ++ s.mtc.hours.extractLsb' 0 4
    let running := n.getLsbD 1 || n.getLsbD 2
    ((s.mtc.frames.toNat < 30 ∧ s.mtc.seconds.toNat < 60 ∧ s.mtc.minutes.toNat < 60 ∧ hours.toNat < 24) →
      exec (.mtcqf (quarterByte x 7 n)) s =
        .next { s with mtc := { s.mtc with hours := hours, running := running, valid := true } }) ∧
    (¬(s.mtc.frames.toNat < 30 ∧ s.mtc.seconds.toNat < 60 ∧ s.mtc.minutes.toNat < 60 ∧ hours.toNat < 24) →
      exec (.mtcqf (quarterByte x 7 n)) s =
        .next { s with mtc := { s.mtc with hours := hours, running := running, valid := false },
                       errorCount := s.errorCount + 1 })

/-- The QF8 rows, the MTC packet row and QFRAME are MTCQF of their byte (R121, R235, R272; log 3). -/
def Obligations.QuarterFrameRows : Prop :=
  (∀ (x : BitVec 1) (n : BitVec 4) (s : State),
    (∃ t, exec (.qfP0 x n) s = .next t ∧ exec (.mtcqf (quarterByte x 0 n)) s = .next t) ∧
    (∃ t, exec (.qfP1 x n) s = .next t ∧ exec (.mtcqf (quarterByte x 1 n)) s = .next t) ∧
    (∃ t, exec (.qfP2 x n) s = .next t ∧ exec (.mtcqf (quarterByte x 2 n)) s = .next t) ∧
    (∃ t, exec (.qfP3 x n) s = .next t ∧ exec (.mtcqf (quarterByte x 3 n)) s = .next t) ∧
    (∃ t, exec (.qfP4 x n) s = .next t ∧ exec (.mtcqf (quarterByte x 4 n)) s = .next t) ∧
    (∃ t, exec (.qfP5 x n) s = .next t ∧ exec (.mtcqf (quarterByte x 5 n)) s = .next t) ∧
    (∃ t, exec (.qfP6 x n) s = .next t ∧ exec (.mtcqf (quarterByte x 6 n)) s = .next t) ∧
    (∃ t, exec (.qfP7 x n) s = .next t ∧ exec (.mtcqf (quarterByte x 7 n)) s = .next t)) ∧
  (∀ (hi cin : BitVec 4) (qf data2 : Byte) (now : Time) (s : State), (cin.toNat < 8 ∨ cin = 0xF) →
    ∃ t, exec (.pktMtc (hi ++ cin) qf data2 now) s = .next t ∧ exec (.mtcqf qf) s = .next t) ∧
  (∀ (p : BitVec 3) (n : BitVec 4) (s : State),
    ∃ t, exec (.qframe p n) s = .next t ∧ exec (.mtcqf (quarterByte 0 p n)) s = .next t)

/-- MTCFULL assembles the whole time from any state: the fields are its operands, the hours their low five bits
(R121, R271). -/
def Obligations.MtcfullAssemblesTheTime : Prop :=
  ∀ (hh mm ss ff : Byte) (r : BitVec 2) (s : State), s.cfg.valued = Config.r9 →
    let hours := hh &&& 0x1F
    let ok := decide (ff.toNat < 30 ∧ ss.toNat < 60 ∧ mm.toNat < 60 ∧ hours.toNat < 24)
    exec (.mtcfull hh mm ss ff r) s =
      .next { s with
        mtc := { hours := hours, minutes := mm, seconds := ss, frames := ff, running := decide (r ≠ 0), valid := ok }
        errorCount := if ok then s.errorCount else s.errorCount + 1 }

/-! ## Frames -/

/-- R241, R244, R247: a frame of another shape or of an unknown type adds one to the error counter and does nothing
else. -/
def Obligations.MalformedFrames : Prop :=
  ∀ (bytes : List Byte) (s : State), s.cfg.valued = Config.r9 →
    (bytes.length < 8 ∨ bytes.take 4 ≠ [0xF0, 0x00, 0x21, 0x7B] ∨ bytes.getLast? ≠ some 0xF7 ∨
      bytes[4]? = some 0x00 ∨ (∃ t, bytes[4]? = some t ∧ 6 < t.toNat)) →
    exec (.rxsysex bytes) s = .next { s with errorCount := s.errorCount + 1 }

/-- R250 to R252, R255: the frames that call DAWSYNC, counted first; bytes beyond the payload are ignored. -/
def Obligations.FramesThatSyncASlot : Prop :=
  ∀ (track bank : Byte) (s : State), s.cfg.valued = Config.r9 →
    let s' := { s with sysexCount := s.sysexCount + 1 }
    let frame (t : Byte) (payload : List Byte) : List Byte :=
      [0xF0, 0x00, 0x21, 0x7B, t, track, bank] ++ payload ++ [0xF7]
    let colour (r g b : Byte) : BitVec 16 := r.extractLsb' 3 5 ++ g.extractLsb' 2 6 ++ b.extractLsb' 3 5
    (∀ (r g b : Byte) (more : List Byte), ∃ t, exec (.rxsysex (frame 0x01 ([r, g, b] ++ more))) s = .next t ∧
      exec (.dawsync track bank none (some (colour r g b)) none) s' = .next t) ∧
    (∀ (v : Byte) (more : List Byte), ∃ t, exec (.rxsysex (frame 0x02 (v :: more))) s = .next t ∧
      exec (.dawsync track bank (some v) none none) s' = .next t) ∧
    (∀ name : List Byte, ∃ t, exec (.rxsysex (frame 0x03 name)) s = .next t ∧
      exec (.dawsync track bank none none (some (name.take 5))) s' = .next t) ∧
    (∀ (v r g b : Byte) (more : List Byte), ∃ t, exec (.rxsysex (frame 0x06 ([v, r, g, b] ++ more))) s = .next t ∧
      exec (.dawsync track bank (some v) (some (colour r g b)) none) s' = .next t)

/-- R253, and what R254 says of the flags: the VU frame notifies the display when its track exists; the transport frame
overwrites the three flags. Both are counted, and nothing else changes. -/
def Obligations.VuAndTransportFrames : Prop :=
  ∀ (track bank v : Byte) (more : List Byte) (s : State), s.cfg.valued = Config.r9 →
    let frame (t : Byte) : List Byte := [0xF0, 0x00, 0x21, 0x7B, t, track, bank, v] ++ more ++ [0xF7]
    (∀ k : Fin 16, track = BitVec.ofNat 8 k.val →
      exec (.rxsysex (frame 0x04)) s = .next ({ s with sysexCount := s.sysexCount + 1 }.notify (.vu k v))) ∧
    (16 ≤ track.toNat → exec (.rxsysex (frame 0x04)) s = .next { s with sysexCount := s.sysexCount + 1 }) ∧
    exec (.rxsysex (frame 0x05)) s =
      .next { s with
        sysexCount := s.sysexCount + 1
        xp := { playing := v.getLsbD s.cfg.xportPlay.val, recording := v.getLsbD s.cfg.xportRec.val,
                paused := v.getLsbD s.cfg.xportPause.val } }

/-- R246: a frame of a known type shorter than its minimum is counted as processed and does nothing else. -/
def Obligations.UndersizedFrames : Prop :=
  ∀ p ∈ [((0x01 : Byte), 11), (0x02, 9), (0x04, 9), (0x05, 9), (0x06, 12)],
    ∀ (track bank : Byte) (payload : List Byte) (s : State), s.cfg.valued = Config.r9 → payload.length + 8 < p.2 →
      exec (.rxsysex ([0xF0, 0x00, 0x21, 0x7B, p.1, track, bank] ++ payload ++ [0xF7])) s =
        .next { s with sysexCount := s.sysexCount + 1 }

/-- The SYSEX rows and SX are RXSYSEX of the frame they stand for, the malformed row of the bytes it carries (R101, R102,
R121). That the rows are executed is the model's choice (log 3). -/
def Obligations.FrameRows : Prop :=
  ∀ (track bank : Byte) (payload : List Byte) (s : State),
    let received (t : Byte) : Result := exec (.rxsysex ([0xF0, 0x00, 0x21, 0x7B, t, track, bank] ++ payload ++ [0xF7])) s
    (∃ t, exec (.sxT01 track bank payload) s = .next t ∧ received 0x01 = .next t) ∧
    (∃ t, exec (.sxT02 track bank payload) s = .next t ∧ received 0x02 = .next t) ∧
    (∃ t, exec (.sxT03 track bank payload) s = .next t ∧ received 0x03 = .next t) ∧
    (∃ t, exec (.sxT04 track bank payload) s = .next t ∧ received 0x04 = .next t) ∧
    (∃ t, exec (.sxT05 track bank payload) s = .next t ∧ received 0x05 = .next t) ∧
    (∃ t, exec (.sxT06 track bank payload) s = .next t ∧ received 0x06 = .next t) ∧
    (∀ k : Byte, ∃ t, exec (.sx k track bank payload) s = .next t ∧ received k = .next t) ∧
    (∀ bytes : List Byte, ∃ t, exec (.sxMalformed bytes) s = .next t ∧ exec (.rxsysex bytes) s = .next t)

/-! ## Colours, status, whole-machine rules -/

/-- R260 to R262: the packed colour, its inverse, and the two round trips. -/
def Obligations.ColoursPackAndUnpack : Prop :=
  (∀ (r g b : Byte) (s : State), exec (.pack565 r g b) s =
    .next (s.ret (.packed (r.extractLsb' 3 5 ++ g.extractLsb' 2 6 ++ b.extractLsb' 3 5)))) ∧
  (∀ (c : BitVec 16) (s : State), exec (.unpack565 c) s =
    .next (s.ret (.rgb (c.extractLsb' 11 5 ++ 0#3) (c.extractLsb' 5 6 ++ 0#2) (c.extractLsb' 0 5 ++ 0#3)))) ∧
  (∀ r g b : Byte, red565 (pack565 r g b) = r &&& 0xF8 ∧ green565 (pack565 r g b) = g &&& 0xFC ∧
    blue565 (pack565 r g b) = b &&& 0xF8) ∧
  (∀ c : BitVec 16, pack565 (red565 c) (green565 c) (blue565 c) = c)

/-- R292 with the registers of R39: STATREAD returns the register's value and changes nothing; above 9 it returns
nothing. -/
def Obligations.StatreadReturnsTheRegister : Prop :=
  ∀ s : State,
    let reads (i : Byte) (v : Nat) : Prop := exec (.statread i) s = .next (s.ret (.status (some v)))
    reads 0 s.errorCount.toNat ∧ reads 1 s.sysexCount.toNat ∧ reads 2 s.oq.contents.length ∧
    reads 3 (s.mtc.hours.toNat * 2 ^ 24 + s.mtc.minutes.toNat * 2 ^ 16 + s.mtc.seconds.toNat * 2 ^ 8 +
      s.mtc.frames.toNat) ∧
    reads 4 (s.mtc.valid.toNat * 2 + s.mtc.running.toNat) ∧
    reads 5 (s.xp.paused.toNat * 4 + s.xp.recording.toNat * 2 + s.xp.playing.toNat) ∧
    reads 6 s.lastSense.toNat ∧ reads 7 s.currentBank.val ∧ reads 8 s.accelEn.toNat ∧
    (∃ v, reads 9 v ∧ ∀ h, v.testBit h = s.ready.getD h false) ∧
    (∀ i : Byte, 9 < i.toNat → exec (.statread i) s = .next (s.ret (.status none)))

/-- R254, R291: recording and paused become 1 only through a SysEx frame of type 05, whatever the instruction, and in a
step only when the step takes the transaction of one. The XPORT8 row is such a frame by the model's choice (log 3). -/
def Obligations.OnlyFramesRaiseRecordingAndPaused : Prop :=
  (∀ (i : Instr) (s t : State), exec i s = .next t → i.carriesTransport = false →
    (t.xp.recording = true → s.xp.recording = true) ∧ (t.xp.paused = true → s.xp.paused = true)) ∧
  (∀ s t : State, step s = .next t →
    ((s.xp.recording = false ∧ t.xp.recording = true) ∨ (s.xp.paused = false ∧ t.xp.paused = true)) →
    ∃ x i, s.inp.inbox = x :: t.inp.inbox ∧ decode x = .ok i ∧ i.carriesTransport = true)

/-- R20, R76: no instruction but a quadrature sample writes a channel. -/
def Obligations.OnlySamplesWriteChannels : Prop :=
  ∀ (i : Instr) (s t : State), exec i s = .next t → i.samples = false → t.q = s.q

/-- 93_implementation_defined.md U21 (log 14): an operand outside its declared type is refused by name. -/
def Obligations.OperandsOutsideTheirType : Prop :=
  (∀ (h : Nat) (ph : Vector (BitVec 2) 16) (now : Time) (s : State), s.ready.length ≤ h →
    exec (.flagset h) s = .refused (.noSuchFlag h) ∧ exec (.flagclr h) s = .refused (.noSuchFlag h) ∧
    exec (.encservice h ph now) s = .refused (.noSuchFlag h)) ∧
  (∀ (status : Byte) (now : Time) (s : State), status.toNat < 0xF8 →
    exec (.rt status now) s = .refused (.notRealtime status)) ∧
  (∀ (x : Xact) (rest : List Xact) (why : Reject) (s : State), s.inp.rst = 0 → s.inp.irq = [] → s.svc = none →
    s.inp.inbox = x :: rest → decode x = .error why → step s = .refused (.undecodable why))
end

