-- ==== Sys2Proof/Laws/Bits.lean ====
section
/-! SUPPORT. The bit fields of the wire formats as concatenations: the nibbles of the timebase, the quarter-frame byte,
the packet header, the status byte, the packed colour. -/

namespace Sys2Proof.Machine

/-! ## Bits of a concatenation at a literal width -/

theorem getLsbD_append_4_4 (a b : BitVec 4) (i : Nat) :
    (a ++ b : BitVec 8).getLsbD i = if i < 4 then b.getLsbD i else a.getLsbD (i - 4) := by
  have h := @BitVec.getLsbD_append 4 4 i a b
  simpa using h

theorem getLsbD_append_1_7 (a : BitVec 1) (b : BitVec 7) (i : Nat) :
    (a ++ b : BitVec 8).getLsbD i = if i < 7 then b.getLsbD i else a.getLsbD (i - 7) := by
  have h := @BitVec.getLsbD_append 1 7 i a b
  simpa using h

theorem getLsbD_append_5_3 (a : BitVec 5) (b : BitVec 3) (i : Nat) :
    (a ++ b : BitVec 8).getLsbD i = if i < 3 then b.getLsbD i else a.getLsbD (i - 3) := by
  have h := @BitVec.getLsbD_append 5 3 i a b
  simpa using h

theorem getLsbD_append_6_2 (a : BitVec 6) (b : BitVec 2) (i : Nat) :
    (a ++ b : BitVec 8).getLsbD i = if i < 2 then b.getLsbD i else a.getLsbD (i - 2) := by
  have h := @BitVec.getLsbD_append 6 2 i a b
  simpa using h

theorem getLsbD_append_1_3_4 (a : BitVec 1) (b : BitVec 3) (c : BitVec 4) (i : Nat) :
    (a ++ b ++ c : BitVec 8).getLsbD i =
      if i < 4 then c.getLsbD i else if i < 7 then b.getLsbD (i - 4) else a.getLsbD (i - 7) := by
  have h := @BitVec.getLsbD_append 4 4 i (a ++ b) c
  have h' := @BitVec.getLsbD_append 1 3 (i - 4) a b
  have e : (i - 4 < 3) = (i < 7 ∨ i < 4) := by
    apply propext
    omega
  refine h.trans ?_
  split
  · rfl
  · rename_i h4
    refine h'.trans ?_
    simp only [e, h4, or_false, Nat.sub_sub]

theorem getLsbD_append_3_1_4 (a : BitVec 3) (b : BitVec 1) (c : BitVec 4) (i : Nat) :
    (a ++ b ++ c : BitVec 8).getLsbD i =
      if i < 4 then c.getLsbD i else if i < 5 then b.getLsbD (i - 4) else a.getLsbD (i - 5) := by
  have h := @BitVec.getLsbD_append 4 4 i (a ++ b) c
  have h' := @BitVec.getLsbD_append 3 1 (i - 4) a b
  have e : (i - 4 < 1) = (i < 5 ∨ i < 4) := by
    apply propext
    omega
  refine h.trans ?_
  split
  · rfl
  · rename_i h4
    refine h'.trans ?_
    simp only [e, h4, or_false, Nat.sub_sub]

theorem getLsbD_append_5_6_5 (a : BitVec 5) (b : BitVec 6) (c : BitVec 5) (i : Nat) :
    (a ++ b ++ c : BitVec 16).getLsbD i =
      if i < 5 then c.getLsbD i else if i < 11 then b.getLsbD (i - 5) else a.getLsbD (i - 11) := by
  have h := @BitVec.getLsbD_append 11 5 i (a ++ b) c
  have h' := @BitVec.getLsbD_append 5 6 (i - 5) a b
  have e : (i - 5 < 6) = (i < 11 ∨ i < 5) := by
    apply propext
    omega
  refine h.trans ?_
  split
  · rfl
  · rename_i h4
    refine h'.trans ?_
    simp only [e, h4, or_false, Nat.sub_sub]

/-! ## Nibbles -/

/-- `(field & 0xF0) | n` keeps the high nibble. -/
theorem setLowNibble_eq (f : Byte) (n : BitVec 4) : setLowNibble f n = f.extractLsb' 4 4 ++ n := by
  apply BitVec.eq_of_getLsbD_eq
  intro i hi
  rw [getLsbD_append_4_4]
  interval_cases i <;> simp [setLowNibble]

/-- `(field & 0x0F) | (n << 4)` keeps the low nibble. -/
theorem setHighNibble_eq (f : Byte) (n : BitVec 4) : setHighNibble f n = n ++ f.extractLsb' 0 4 := by
  apply BitVec.eq_of_getLsbD_eq
  intro i hi
  rw [getLsbD_append_4_4]
  interval_cases i <;> simp [setHighNibble]

/-- The high nibble piece 7 writes: bit 0 of its nibble (44_mtc_transport.md R277). -/
theorem setHighNibble_hours (f : Byte) (n : BitVec 4) :
    setHighNibble f (n &&& 0b0001) = 0#3 ++ n.extractLsb' 0 1 ++ f.extractLsb' 0 4 := by
  apply BitVec.eq_of_getLsbD_eq
  intro i hi
  rw [getLsbD_append_3_1_4]
  interval_cases i <;> simp [setHighNibble]

theorem setLowNibble_bounds_hours (f : Byte) (n : BitVec 4) (h : f.toNat < 32) : (setLowNibble f n).toNat < 32 := by
  have hf : f.toNat &&& 240 ≤ 16 := by
    revert h
    generalize f.toNat = k
    intro h
    interval_cases k <;> decide
  have hn := n.isLt
  simp only [setLowNibble, BitVec.toNat_or, BitVec.toNat_and, BitVec.toNat_setWidth]
  have e : BitVec.toNat (0xF0 : Byte) = 240 := rfl
  rw [e]
  have : n.toNat % 2 ^ 8 = n.toNat := Nat.mod_eq_of_lt (by omega)
  rw [this]
  exact Nat.or_lt_two_pow (n := 5) (by omega) (by omega)

/-- The two nibbles of a byte, written one after the other, make the byte. -/
theorem setNibbles (f b : Byte) : setHighNibble (setLowNibble f (b.extractLsb' 0 4)) (b.extractLsb' 4 4) = b := by
  apply BitVec.eq_of_getLsbD_eq
  intro i hi
  interval_cases i <;> simp [setHighNibble, setLowNibble]

/-- The hours of MTCFULL: its low nibble and bit 4. -/
theorem setNibbles_hours (f hh : Byte) (r : BitVec 2) :
    setHighNibble (setLowNibble f (hh.extractLsb' 0 4)) (lastNibble hh r &&& 0b0001) = hh &&& 0x1F := by
  have e : lastNibble hh r &&& 0b0001 = (hh.extractLsb' 4 1).setWidth 4 := by
    unfold lastNibble
    generalize hh.extractLsb' 4 1 = b
    revert r b
    decide
  rw [e]
  apply BitVec.eq_of_getLsbD_eq
  intro i hi
  interval_cases i <;> simp [setHighNibble, setLowNibble]

theorem runningOf_eq (n : BitVec 4) : runningOf n = (n.getLsbD 1 || n.getLsbD 2) := by
  revert n
  decide

theorem runningOf_lastNibble (hh : Byte) (r : BitVec 2) : runningOf (lastNibble hh r) = decide (r ≠ 0) := by
  unfold lastNibble
  generalize hh.extractLsb' 4 1 = b
  revert r b
  decide

/-! ## Quarter-frame byte, header, status byte -/

theorem pieceOf_quarterByte (x : BitVec 1) (p : BitVec 3) (n : BitVec 4) : pieceOf (quarterByte x p n) = p := by
  apply BitVec.eq_of_getLsbD_eq
  intro i hi
  simp only [pieceOf, quarterByte, BitVec.getLsbD_extractLsb', getLsbD_append_1_3_4]
  interval_cases i <;> simp

theorem nibbleOf_quarterByte (x : BitVec 1) (p : BitVec 3) (n : BitVec 4) : nibbleOf (quarterByte x p n) = n := by
  apply BitVec.eq_of_getLsbD_eq
  intro i hi
  simp only [nibbleOf, quarterByte, BitVec.getLsbD_extractLsb', getLsbD_append_1_3_4]
  interval_cases i <;> simp

/-- The code-index number of a header. -/
theorem cin_append (hi c : BitVec 4) : cin (hi ++ c) = c := by
  apply BitVec.eq_of_getLsbD_eq
  intro i h
  simp only [cin, BitVec.getLsbD_extractLsb', getLsbD_append_4_4]
  interval_cases i <;> simp

theorem statusByte_append (c : BitVec 4) :
    statusByte 0xB (c.toNat + 1) = 0xB#4 ++ c ∧ statusByte 0x9 (c.toNat + 1) = 0x9#4 ++ c ∧
      statusByte 0x8 (c.toNat + 1) = 0x8#4 ++ c ∧ statusByte 0xE (c.toNat + 1) = 0xE#4 ++ c := by
  revert c
  decide

theorem statusByte_or (c : Fin 16) :
    statusByte 0xB (c.val + 1) = 0xB0 ||| BitVec.ofNat 8 c.val ∧
      statusByte 0x9 (c.val + 1) = 0x90 ||| BitVec.ofNat 8 c.val ∧
      statusByte 0x8 (c.val + 1) = 0x80 ||| BitVec.ofNat 8 c.val ∧
      statusByte 0xE (c.val + 1) = 0xE0 ||| BitVec.ofNat 8 c.val := by
  revert c
  decide

/-- The wire value of a pitch bend given by its two halves. -/
theorem bendWire_append (hi lo : BitVec 7) : bendWire (((hi ++ lo).toNat : Int) - 8192) = hi ++ lo := by
  have e : (((hi ++ lo).toNat : Int) - 8192 + 8192) = ((hi ++ lo).toNat : Int) := by omega
  rw [bendWire, e]
  simp

theorem extract_append_7_7 (hi lo : BitVec 7) :
    (hi ++ lo).extractLsb' 0 7 = lo ∧ (hi ++ lo).extractLsb' 7 7 = hi := by
  constructor <;>
  · apply BitVec.eq_of_getLsbD_eq
    intro i h
    have e : ∀ k, (hi ++ lo).getLsbD k = if k < 7 then lo.getLsbD k else hi.getLsbD (k - 7) := fun k => by
      have h := @BitVec.getLsbD_append 7 7 k hi lo
      simpa using h
    simp only [BitVec.getLsbD_extractLsb', e]
    interval_cases i <;> simp

/-- A data byte, its bit 7 clear. -/
theorem setWidth_append (v : BitVec 7) : (v.setWidth 8 : Byte) = 0#1 ++ v := by
  apply BitVec.eq_of_getLsbD_eq
  intro i hi
  rw [getLsbD_append_1_7]
  interval_cases i <;> simp

/-! ## Colours -/

theorem pack565_eq (r g b : Byte) :
    pack565 r g b = r.extractLsb' 3 5 ++ g.extractLsb' 2 6 ++ b.extractLsb' 3 5 := by
  apply BitVec.eq_of_getLsbD_eq
  intro i hi
  rw [getLsbD_append_5_6_5]
  interval_cases i <;> simp [pack565]

theorem red565_eq (c : BitVec 16) : red565 c = c.extractLsb' 11 5 ++ 0#3 := by
  apply BitVec.eq_of_getLsbD_eq
  intro i hi
  rw [getLsbD_append_5_3]
  interval_cases i <;> simp [red565]

theorem green565_eq (c : BitVec 16) : green565 c = c.extractLsb' 5 6 ++ 0#2 := by
  apply BitVec.eq_of_getLsbD_eq
  intro i hi
  rw [getLsbD_append_6_2]
  interval_cases i <;> simp [green565]

theorem blue565_eq (c : BitVec 16) : blue565 c = c.extractLsb' 0 5 ++ 0#3 := by
  apply BitVec.eq_of_getLsbD_eq
  intro i hi
  rw [getLsbD_append_5_3]
  interval_cases i <;> simp [blue565]

end Sys2Proof.Machine
end

