-- ==== Sys2Proof/Laws/Codec.lean ====
section
/-! SUPPORT. What the decoder reads back of each operand the encoder writes: byte order, booleans, narrow fields,
channels, code-index numbers, the samples of a service. -/

namespace Sys2Proof

/-! ## Byte order -/

theorem be16_toNat (a b : Byte) : (be16 a b).toNat = a.toNat * 2 ^ 8 + b.toNat := by
  have e : (a ++ b).toNat = a.toNat <<< 8 ||| b.toNat := BitVec.toNat_append a b
  rw [← Nat.shiftLeft_add_eq_or_of_lt b.isLt, Nat.shiftLeft_eq] at e
  exact e

theorem be32_toNat (a b c d : Byte) :
    (be32 a b c d).toNat = a.toNat * 2 ^ 24 + b.toNat * 2 ^ 16 + c.toNat * 2 ^ 8 + d.toNat := by
  have e1 : (a ++ b).toNat = a.toNat <<< 8 ||| b.toNat := BitVec.toNat_append a b
  have e2 : (a ++ b ++ c).toNat = (a ++ b).toNat <<< 8 ||| c.toNat := BitVec.toNat_append (a ++ b) c
  have e3 : (a ++ b ++ c ++ d).toNat = (a ++ b ++ c).toNat <<< 8 ||| d.toNat := BitVec.toNat_append (a ++ b ++ c) d
  rw [← Nat.shiftLeft_add_eq_or_of_lt b.isLt, Nat.shiftLeft_eq] at e1
  rw [← Nat.shiftLeft_add_eq_or_of_lt c.isLt, Nat.shiftLeft_eq, e1] at e2
  rw [← Nat.shiftLeft_add_eq_or_of_lt d.isLt, Nat.shiftLeft_eq, e2] at e3
  refine Eq.trans e3 ?_
  omega

@[simp] theorem be16_bytes16 (w : BitVec 16) : be16 (w.extractLsb' 8 8) (w.extractLsb' 0 8) = w := by
  apply BitVec.eq_of_toNat_eq
  rw [be16_toNat]
  simp only [BitVec.extractLsb'_toNat, Nat.shiftRight_eq_div_pow]
  have := w.isLt
  omega

@[simp] theorem be32_bytes32 (w : BitVec 32) :
    be32 (w.extractLsb' 24 8) (w.extractLsb' 16 8) (w.extractLsb' 8 8) (w.extractLsb' 0 8) = w := by
  apply BitVec.eq_of_toNat_eq
  rw [be32_toNat]
  simp only [BitVec.extractLsb'_toNat, Nat.shiftRight_eq_div_pow]
  have := w.isLt
  omega

/-! ## Operands -/

@[simp] theorem boolOf_byteOfBool (v : Bool) : boolOf (byteOfBool v) = .ok v := by cases v <;> rfl

@[simp] theorem controlTypeOf_byteOfControlType (v : ControlType) :
    controlTypeOf (byteOfControlType v) = .ok v := by cases v <;> rfl

theorem narrow_setWidth {n : Nat} (h : n ≤ 8) (v : BitVec n) : narrow n (v.setWidth 8) = .ok v := by
  have hv := v.isLt
  have hp : 2 ^ n ≤ 2 ^ 8 := Nat.pow_le_pow_right (by omega) h
  have e : (v.setWidth 8).toNat = v.toNat := by
    rw [BitVec.toNat_setWidth]
    exact Nat.mod_eq_of_lt (by omega)
  unfold narrow
  rw [if_pos (by omega)]
  congr 1
  apply BitVec.eq_of_toNat_eq
  rw [BitVec.toNat_setWidth, e]
  exact Nat.mod_eq_of_lt hv

@[simp] theorem channelOf_ofNat (ch : Fin 17) : channelOf (BitVec.ofNat 8 ch.val) = .ok ch := by
  revert ch
  decide

theorem midiChannelOf_byteOf {c : Nat} (h : c < 256) : midiChannelOf (byteOfMidiChannel c) = c := by
  have e : BitVec.toNat (1 : Byte) = 1 := rfl
  simp only [midiChannelOf, byteOfMidiChannel, BitVec.toNat_add, BitVec.toNat_ofNat, e]
  omega

theorem toNat_ofNat8 {n : Nat} (h : n < 256) : (BitVec.ofNat 8 n).toNat = n := by
  rw [BitVec.toNat_ofNat]
  exact Nat.mod_eq_of_lt h

theorem toInt_bytes16 {v : Int} (h1 : -32768 ≤ v) (h2 : v < 32768) : (BitVec.ofInt 16 v).toInt = v := by
  rw [BitVec.toInt_ofInt]
  exact Int.bmod_eq_of_le (by omega) (by omega)

/-! ## Packet headers -/

theorem header_append (header : Byte) : header.extractLsb' 4 4 ++ header.extractLsb' 0 4 = header := by
  apply BitVec.eq_of_getLsbD_eq
  intro i hi
  rw [Machine.getLsbD_append_4_4]
  interval_cases i <;> simp

theorem high_append (hi c : BitVec 4) : (hi ++ c : Byte).extractLsb' 4 4 = hi := by
  apply BitVec.eq_of_getLsbD_eq
  intro i h
  simp only [BitVec.getLsbD_extractLsb', Machine.getLsbD_append_4_4]
  interval_cases i <;> simp

theorem low_append (hi c : BitVec 4) : (hi ++ c : Byte).extractLsb' 0 4 = c := Machine.cin_append hi c

/-- The samples of a service, written one a byte and read back. -/
theorem decodePhases_encode (ph : Vector (BitVec 2) 16) (rest : List Byte) :
    decodePhases (ph.toList.map (fun p => p.setWidth 8) ++ rest) = .ok (ph, rest) := by
  have hb : ∀ p : BitVec 2, (p.setWidth 8 : Byte).toNat < 4 := by decide
  have hw : ∀ p : BitVec 2, (p.setWidth 8 : Byte).setWidth 2 = p := by decide
  obtain ⟨⟨l⟩, hl⟩ := ph
  obtain ⟨a0, a1, a2, a3, a4, a5, a6, a7, a8, a9, a10, a11, a12, a13, a14, a15, rfl⟩ :
      ∃ a0 a1 a2 a3 a4 a5 a6 a7 a8 a9 a10 a11 a12 a13 a14 a15,
        l = [a0, a1, a2, a3, a4, a5, a6, a7, a8, a9, a10, a11, a12, a13, a14, a15] := by
    simp only [List.size_toArray] at hl
    match l, hl with
    | [a0, a1, a2, a3, a4, a5, a6, a7, a8, a9, a10, a11, a12, a13, a14, a15], _ =>
      exact ⟨a0, a1, a2, a3, a4, a5, a6, a7, a8, a9, a10, a11, a12, a13, a14, a15, rfl⟩
  simp only [Vector.toList_mk, List.map_cons, List.map_nil, List.cons_append, List.nil_append, decodePhases]
  rw [if_pos (by simp only [List.forall_mem_cons, hb, List.not_mem_nil, false_implies, implies_true, and_self])]
  simp only [hw]

end Sys2Proof
end

