-- ==== Sys2Proof/Laws/State.lean ====
section
/-! SUPPORT. The small lemmas of the state: what each named update leaves in each field, all true by `rfl`; and reads
after writes of a channel and of a slot; and the numbers of R9, one by one. -/

namespace Sys2Proof.Machine.State

/-! ## setChan -/

@[simp] theorem setChan_accelEn (s : State) (ch : Fin Config.nCh) (c : QChan) : (s.setChan ch c).accelEn = s.accelEn := rfl
@[simp] theorem setChan_ready (s : State) (ch : Fin Config.nCh) (c : QChan) : (s.setChan ch c).ready = s.ready := rfl
@[simp] theorem setChan_sw (s : State) (ch : Fin Config.nCh) (c : QChan) : (s.setChan ch c).sw = s.sw := rfl
@[simp] theorem setChan_btn (s : State) (ch : Fin Config.nCh) (c : QChan) : (s.setChan ch c).btn = s.btn := rfl
@[simp] theorem setChan_navPoll (s : State) (ch : Fin Config.nCh) (c : QChan) : (s.setChan ch c).navPoll = s.navPoll := rfl
@[simp] theorem setChan_nb (s : State) (ch : Fin Config.nCh) (c : QChan) : (s.setChan ch c).nb = s.nb := rfl
@[simp] theorem setChan_slots (s : State) (ch : Fin Config.nCh) (c : QChan) : (s.setChan ch c).slots = s.slots := rfl
@[simp] theorem setChan_currentBank (s : State) (ch : Fin Config.nCh) (c : QChan) : (s.setChan ch c).currentBank = s.currentBank := rfl
@[simp] theorem setChan_oq (s : State) (ch : Fin Config.nCh) (c : QChan) : (s.setChan ch c).oq = s.oq := rfl
@[simp] theorem setChan_errorCount (s : State) (ch : Fin Config.nCh) (c : QChan) : (s.setChan ch c).errorCount = s.errorCount := rfl
@[simp] theorem setChan_sysexCount (s : State) (ch : Fin Config.nCh) (c : QChan) : (s.setChan ch c).sysexCount = s.sysexCount := rfl
@[simp] theorem setChan_mtc (s : State) (ch : Fin Config.nCh) (c : QChan) : (s.setChan ch c).mtc = s.mtc := rfl
@[simp] theorem setChan_xp (s : State) (ch : Fin Config.nCh) (c : QChan) : (s.setChan ch c).xp = s.xp := rfl
@[simp] theorem setChan_lastSense (s : State) (ch : Fin Config.nCh) (c : QChan) : (s.setChan ch c).lastSense = s.lastSense := rfl
@[simp] theorem setChan_svc (s : State) (ch : Fin Config.nCh) (c : QChan) : (s.setChan ch c).svc = s.svc := rfl
@[simp] theorem setChan_cfg (s : State) (ch : Fin Config.nCh) (c : QChan) : (s.setChan ch c).cfg = s.cfg := rfl
@[simp] theorem setChan_inp (s : State) (ch : Fin Config.nCh) (c : QChan) : (s.setChan ch c).inp = s.inp := rfl
@[simp] theorem setChan_out (s : State) (ch : Fin Config.nCh) (c : QChan) : (s.setChan ch c).out = s.out := rfl
@[simp] theorem setChan_slot (s : State) (ch : Fin Config.nCh) (c : QChan) (b' : Fin Config.nBank) (t' : Fin Config.nTrack) :
    (s.setChan ch c).slot b' t' = s.slot b' t' := rfl

/-! ## setSlot -/

@[simp] theorem setSlot_q (s : State) (b : Fin Config.nBank) (t : Fin Config.nTrack) (x : Slot) : (s.setSlot b t x).q = s.q := rfl
@[simp] theorem setSlot_accelEn (s : State) (b : Fin Config.nBank) (t : Fin Config.nTrack) (x : Slot) : (s.setSlot b t x).accelEn = s.accelEn := rfl
@[simp] theorem setSlot_ready (s : State) (b : Fin Config.nBank) (t : Fin Config.nTrack) (x : Slot) : (s.setSlot b t x).ready = s.ready := rfl
@[simp] theorem setSlot_sw (s : State) (b : Fin Config.nBank) (t : Fin Config.nTrack) (x : Slot) : (s.setSlot b t x).sw = s.sw := rfl
@[simp] theorem setSlot_btn (s : State) (b : Fin Config.nBank) (t : Fin Config.nTrack) (x : Slot) : (s.setSlot b t x).btn = s.btn := rfl
@[simp] theorem setSlot_navPoll (s : State) (b : Fin Config.nBank) (t : Fin Config.nTrack) (x : Slot) : (s.setSlot b t x).navPoll = s.navPoll := rfl
@[simp] theorem setSlot_nb (s : State) (b : Fin Config.nBank) (t : Fin Config.nTrack) (x : Slot) : (s.setSlot b t x).nb = s.nb := rfl
@[simp] theorem setSlot_currentBank (s : State) (b : Fin Config.nBank) (t : Fin Config.nTrack) (x : Slot) : (s.setSlot b t x).currentBank = s.currentBank := rfl
@[simp] theorem setSlot_oq (s : State) (b : Fin Config.nBank) (t : Fin Config.nTrack) (x : Slot) : (s.setSlot b t x).oq = s.oq := rfl
@[simp] theorem setSlot_errorCount (s : State) (b : Fin Config.nBank) (t : Fin Config.nTrack) (x : Slot) : (s.setSlot b t x).errorCount = s.errorCount := rfl
@[simp] theorem setSlot_sysexCount (s : State) (b : Fin Config.nBank) (t : Fin Config.nTrack) (x : Slot) : (s.setSlot b t x).sysexCount = s.sysexCount := rfl
@[simp] theorem setSlot_mtc (s : State) (b : Fin Config.nBank) (t : Fin Config.nTrack) (x : Slot) : (s.setSlot b t x).mtc = s.mtc := rfl
@[simp] theorem setSlot_xp (s : State) (b : Fin Config.nBank) (t : Fin Config.nTrack) (x : Slot) : (s.setSlot b t x).xp = s.xp := rfl
@[simp] theorem setSlot_lastSense (s : State) (b : Fin Config.nBank) (t : Fin Config.nTrack) (x : Slot) : (s.setSlot b t x).lastSense = s.lastSense := rfl
@[simp] theorem setSlot_svc (s : State) (b : Fin Config.nBank) (t : Fin Config.nTrack) (x : Slot) : (s.setSlot b t x).svc = s.svc := rfl
@[simp] theorem setSlot_cfg (s : State) (b : Fin Config.nBank) (t : Fin Config.nTrack) (x : Slot) : (s.setSlot b t x).cfg = s.cfg := rfl
@[simp] theorem setSlot_inp (s : State) (b : Fin Config.nBank) (t : Fin Config.nTrack) (x : Slot) : (s.setSlot b t x).inp = s.inp := rfl
@[simp] theorem setSlot_out (s : State) (b : Fin Config.nBank) (t : Fin Config.nTrack) (x : Slot) : (s.setSlot b t x).out = s.out := rfl
@[simp] theorem setSlot_chan (s : State) (b : Fin Config.nBank) (t : Fin Config.nTrack) (x : Slot) (k : Fin Config.nCh) :
    (s.setSlot b t x).chan k = s.chan k := rfl

/-! ## emit -/

@[simp] theorem emit_q (s : State) (e : Event) : (s.emit e).q = s.q := rfl
@[simp] theorem emit_accelEn (s : State) (e : Event) : (s.emit e).accelEn = s.accelEn := rfl
@[simp] theorem emit_ready (s : State) (e : Event) : (s.emit e).ready = s.ready := rfl
@[simp] theorem emit_sw (s : State) (e : Event) : (s.emit e).sw = s.sw := rfl
@[simp] theorem emit_btn (s : State) (e : Event) : (s.emit e).btn = s.btn := rfl
@[simp] theorem emit_navPoll (s : State) (e : Event) : (s.emit e).navPoll = s.navPoll := rfl
@[simp] theorem emit_nb (s : State) (e : Event) : (s.emit e).nb = s.nb := rfl
@[simp] theorem emit_slots (s : State) (e : Event) : (s.emit e).slots = s.slots := rfl
@[simp] theorem emit_currentBank (s : State) (e : Event) : (s.emit e).currentBank = s.currentBank := rfl
@[simp] theorem emit_oq (s : State) (e : Event) : (s.emit e).oq = s.oq := rfl
@[simp] theorem emit_errorCount (s : State) (e : Event) : (s.emit e).errorCount = s.errorCount := rfl
@[simp] theorem emit_sysexCount (s : State) (e : Event) : (s.emit e).sysexCount = s.sysexCount := rfl
@[simp] theorem emit_mtc (s : State) (e : Event) : (s.emit e).mtc = s.mtc := rfl
@[simp] theorem emit_xp (s : State) (e : Event) : (s.emit e).xp = s.xp := rfl
@[simp] theorem emit_lastSense (s : State) (e : Event) : (s.emit e).lastSense = s.lastSense := rfl
@[simp] theorem emit_svc (s : State) (e : Event) : (s.emit e).svc = s.svc := rfl
@[simp] theorem emit_cfg (s : State) (e : Event) : (s.emit e).cfg = s.cfg := rfl
@[simp] theorem emit_inp (s : State) (e : Event) : (s.emit e).inp = s.inp := rfl
@[simp] theorem emit_events (s : State) (e : Event) :
    (s.emit e).out.events = s.out.events ++ [e] := rfl
@[simp] theorem emit_wire (s : State) (e : Event) : (s.emit e).out.wire = s.out.wire := rfl
@[simp] theorem emit_notes (s : State) (e : Event) : (s.emit e).out.notes = s.out.notes := rfl
@[simp] theorem emit_rets (s : State) (e : Event) : (s.emit e).out.rets = s.out.rets := rfl
@[simp] theorem emit_chan (s : State) (e : Event) (k : Fin Config.nCh) :
    (s.emit e).chan k = s.chan k := rfl
@[simp] theorem emit_slot (s : State) (e : Event) (b' : Fin Config.nBank) (t' : Fin Config.nTrack) :
    (s.emit e).slot b' t' = s.slot b' t' := rfl

/-! ## tx -/

@[simp] theorem tx_q (s : State) (bytes : List Byte) : (s.tx bytes).q = s.q := rfl
@[simp] theorem tx_accelEn (s : State) (bytes : List Byte) : (s.tx bytes).accelEn = s.accelEn := rfl
@[simp] theorem tx_ready (s : State) (bytes : List Byte) : (s.tx bytes).ready = s.ready := rfl
@[simp] theorem tx_sw (s : State) (bytes : List Byte) : (s.tx bytes).sw = s.sw := rfl
@[simp] theorem tx_btn (s : State) (bytes : List Byte) : (s.tx bytes).btn = s.btn := rfl
@[simp] theorem tx_navPoll (s : State) (bytes : List Byte) : (s.tx bytes).navPoll = s.navPoll := rfl
@[simp] theorem tx_nb (s : State) (bytes : List Byte) : (s.tx bytes).nb = s.nb := rfl
@[simp] theorem tx_slots (s : State) (bytes : List Byte) : (s.tx bytes).slots = s.slots := rfl
@[simp] theorem tx_currentBank (s : State) (bytes : List Byte) : (s.tx bytes).currentBank = s.currentBank := rfl
@[simp] theorem tx_oq (s : State) (bytes : List Byte) : (s.tx bytes).oq = s.oq := rfl
@[simp] theorem tx_errorCount (s : State) (bytes : List Byte) : (s.tx bytes).errorCount = s.errorCount := rfl
@[simp] theorem tx_sysexCount (s : State) (bytes : List Byte) : (s.tx bytes).sysexCount = s.sysexCount := rfl
@[simp] theorem tx_mtc (s : State) (bytes : List Byte) : (s.tx bytes).mtc = s.mtc := rfl
@[simp] theorem tx_xp (s : State) (bytes : List Byte) : (s.tx bytes).xp = s.xp := rfl
@[simp] theorem tx_lastSense (s : State) (bytes : List Byte) : (s.tx bytes).lastSense = s.lastSense := rfl
@[simp] theorem tx_svc (s : State) (bytes : List Byte) : (s.tx bytes).svc = s.svc := rfl
@[simp] theorem tx_cfg (s : State) (bytes : List Byte) : (s.tx bytes).cfg = s.cfg := rfl
@[simp] theorem tx_inp (s : State) (bytes : List Byte) : (s.tx bytes).inp = s.inp := rfl
@[simp] theorem tx_events (s : State) (bytes : List Byte) : (s.tx bytes).out.events = s.out.events := rfl
@[simp] theorem tx_wire (s : State) (bytes : List Byte) :
    (s.tx bytes).out.wire = s.out.wire ++ bytes := rfl
@[simp] theorem tx_notes (s : State) (bytes : List Byte) : (s.tx bytes).out.notes = s.out.notes := rfl
@[simp] theorem tx_rets (s : State) (bytes : List Byte) : (s.tx bytes).out.rets = s.out.rets := rfl
@[simp] theorem tx_chan (s : State) (bytes : List Byte) (k : Fin Config.nCh) :
    (s.tx bytes).chan k = s.chan k := rfl
@[simp] theorem tx_slot (s : State) (bytes : List Byte) (b' : Fin Config.nBank) (t' : Fin Config.nTrack) :
    (s.tx bytes).slot b' t' = s.slot b' t' := rfl

/-! ## notify -/

@[simp] theorem notify_q (s : State) (n : Note) : (s.notify n).q = s.q := rfl
@[simp] theorem notify_accelEn (s : State) (n : Note) : (s.notify n).accelEn = s.accelEn := rfl
@[simp] theorem notify_ready (s : State) (n : Note) : (s.notify n).ready = s.ready := rfl
@[simp] theorem notify_sw (s : State) (n : Note) : (s.notify n).sw = s.sw := rfl
@[simp] theorem notify_btn (s : State) (n : Note) : (s.notify n).btn = s.btn := rfl
@[simp] theorem notify_navPoll (s : State) (n : Note) : (s.notify n).navPoll = s.navPoll := rfl
@[simp] theorem notify_nb (s : State) (n : Note) : (s.notify n).nb = s.nb := rfl
@[simp] theorem notify_slots (s : State) (n : Note) : (s.notify n).slots = s.slots := rfl
@[simp] theorem notify_currentBank (s : State) (n : Note) : (s.notify n).currentBank = s.currentBank := rfl
@[simp] theorem notify_oq (s : State) (n : Note) : (s.notify n).oq = s.oq := rfl
@[simp] theorem notify_errorCount (s : State) (n : Note) : (s.notify n).errorCount = s.errorCount := rfl
@[simp] theorem notify_sysexCount (s : State) (n : Note) : (s.notify n).sysexCount = s.sysexCount := rfl
@[simp] theorem notify_mtc (s : State) (n : Note) : (s.notify n).mtc = s.mtc := rfl
@[simp] theorem notify_xp (s : State) (n : Note) : (s.notify n).xp = s.xp := rfl
@[simp] theorem notify_lastSense (s : State) (n : Note) : (s.notify n).lastSense = s.lastSense := rfl
@[simp] theorem notify_svc (s : State) (n : Note) : (s.notify n).svc = s.svc := rfl
@[simp] theorem notify_cfg (s : State) (n : Note) : (s.notify n).cfg = s.cfg := rfl
@[simp] theorem notify_inp (s : State) (n : Note) : (s.notify n).inp = s.inp := rfl
@[simp] theorem notify_events (s : State) (n : Note) : (s.notify n).out.events = s.out.events := rfl
@[simp] theorem notify_wire (s : State) (n : Note) : (s.notify n).out.wire = s.out.wire := rfl
@[simp] theorem notify_notes (s : State) (n : Note) :
    (s.notify n).out.notes = s.out.notes ++ [n] := rfl
@[simp] theorem notify_rets (s : State) (n : Note) : (s.notify n).out.rets = s.out.rets := rfl
@[simp] theorem notify_chan (s : State) (n : Note) (k : Fin Config.nCh) :
    (s.notify n).chan k = s.chan k := rfl
@[simp] theorem notify_slot (s : State) (n : Note) (b' : Fin Config.nBank) (t' : Fin Config.nTrack) :
    (s.notify n).slot b' t' = s.slot b' t' := rfl

/-! ## ret -/

@[simp] theorem ret_q (s : State) (v : Ret) : (s.ret v).q = s.q := rfl
@[simp] theorem ret_accelEn (s : State) (v : Ret) : (s.ret v).accelEn = s.accelEn := rfl
@[simp] theorem ret_ready (s : State) (v : Ret) : (s.ret v).ready = s.ready := rfl
@[simp] theorem ret_sw (s : State) (v : Ret) : (s.ret v).sw = s.sw := rfl
@[simp] theorem ret_btn (s : State) (v : Ret) : (s.ret v).btn = s.btn := rfl
@[simp] theorem ret_navPoll (s : State) (v : Ret) : (s.ret v).navPoll = s.navPoll := rfl
@[simp] theorem ret_nb (s : State) (v : Ret) : (s.ret v).nb = s.nb := rfl
@[simp] theorem ret_slots (s : State) (v : Ret) : (s.ret v).slots = s.slots := rfl
@[simp] theorem ret_currentBank (s : State) (v : Ret) : (s.ret v).currentBank = s.currentBank := rfl
@[simp] theorem ret_oq (s : State) (v : Ret) : (s.ret v).oq = s.oq := rfl
@[simp] theorem ret_errorCount (s : State) (v : Ret) : (s.ret v).errorCount = s.errorCount := rfl
@[simp] theorem ret_sysexCount (s : State) (v : Ret) : (s.ret v).sysexCount = s.sysexCount := rfl
@[simp] theorem ret_mtc (s : State) (v : Ret) : (s.ret v).mtc = s.mtc := rfl
@[simp] theorem ret_xp (s : State) (v : Ret) : (s.ret v).xp = s.xp := rfl
@[simp] theorem ret_lastSense (s : State) (v : Ret) : (s.ret v).lastSense = s.lastSense := rfl
@[simp] theorem ret_svc (s : State) (v : Ret) : (s.ret v).svc = s.svc := rfl
@[simp] theorem ret_cfg (s : State) (v : Ret) : (s.ret v).cfg = s.cfg := rfl
@[simp] theorem ret_inp (s : State) (v : Ret) : (s.ret v).inp = s.inp := rfl
@[simp] theorem ret_events (s : State) (v : Ret) : (s.ret v).out.events = s.out.events := rfl
@[simp] theorem ret_wire (s : State) (v : Ret) : (s.ret v).out.wire = s.out.wire := rfl
@[simp] theorem ret_notes (s : State) (v : Ret) : (s.ret v).out.notes = s.out.notes := rfl
@[simp] theorem ret_rets (s : State) (v : Ret) :
    (s.ret v).out.rets = s.out.rets ++ [v] := rfl
@[simp] theorem ret_chan (s : State) (v : Ret) (k : Fin Config.nCh) :
    (s.ret v).chan k = s.chan k := rfl
@[simp] theorem ret_slot (s : State) (v : Ret) (b' : Fin Config.nBank) (t' : Fin Config.nTrack) :
    (s.ret v).slot b' t' = s.slot b' t' := rfl

/-! ## Reads after writes -/

@[simp] theorem chan_setChan_same (s : State) (ch : Fin Config.nCh) (c : QChan) : (s.setChan ch c).chan ch = c := by
  simp [chan, setChan]

theorem chan_setChan_ne (s : State) {ch k : Fin Config.nCh} (c : QChan) (h : ch ≠ k) :
    (s.setChan ch c).chan k = s.chan k := by
  have h' : ch.val ≠ k.val := fun e => h (Fin.ext e)
  simp [chan, setChan, Vector.getElem_set_ne, h']

theorem chan_setChan (s : State) (ch k : Fin Config.nCh) (c : QChan) :
    (s.setChan ch c).chan k = if ch = k then c else s.chan k := by
  by_cases h : ch = k
  · subst h; simp
  · simp [h, chan_setChan_ne s c h]

@[simp] theorem at_put_same (x : SlotTable) (b : Fin Config.nBank) (t : Fin Config.nTrack) (v : Slot) : (x.put b t v).at b t = v := by
  simp [SlotTable.at, SlotTable.put]

theorem at_put_ne (x : SlotTable) {b b' : Fin Config.nBank} {t t' : Fin Config.nTrack} (v : Slot) (h : ¬(b = b' ∧ t = t')) :
    (x.put b t v).at b' t' = x.at b' t' := by
  by_cases hb : b = b'
  · subst hb
    have ht : t.val ≠ t'.val := fun e => h ⟨rfl, Fin.ext e⟩
    simp [SlotTable.at, SlotTable.put, Vector.getElem_set_ne, ht]
  · have hb' : b.val ≠ b'.val := fun e => hb (Fin.ext e)
    simp [SlotTable.at, SlotTable.put, Vector.getElem_set_ne, hb']

@[simp] theorem slot_setSlot_same (s : State) (b : Fin Config.nBank) (t : Fin Config.nTrack) (x : Slot) :
    (s.setSlot b t x).slot b t = x := at_put_same s.slots b t x

theorem slot_setSlot_ne (s : State) {b b' : Fin Config.nBank} {t t' : Fin Config.nTrack} (x : Slot) (h : ¬(b = b' ∧ t = t')) :
    (s.setSlot b t x).slot b' t' = s.slot b' t' := at_put_ne s.slots x h

theorem slot_setSlot (s : State) (b b' : Fin Config.nBank) (t t' : Fin Config.nTrack) (x : Slot) :
    (s.setSlot b t x).slot b' t' = if b = b' ∧ t = t' then x else s.slot b' t' := by
  by_cases h : b = b' ∧ t = t'
  · obtain ⟨rfl, rfl⟩ := h; simp
  · simp [h, slot_setSlot_ne s x h]

/-! ## Ranges -/

theorem currentBank_lt (s : State) : s.currentBank.val < 4 := s.currentBank.isLt

end Sys2Proof.Machine.State

/-! ## The numbers of 00_scope.md R9 -/

namespace Sys2Proof.Config

@[simp] theorem r9_nMain : r9.nMain = 16 := rfl
@[simp] theorem r9_nCh : r9.nCh = 17 := rfl
@[simp] theorem r9_nSw : r9.nSw = 16 := rfl
@[simp] theorem r9_nBtn : r9.nBtn = 5 := rfl
@[simp] theorem r9_nBank : r9.nBank = 4 := rfl
@[simp] theorem r9_nTrack : r9.nTrack = 16 := rfl
@[simp] theorem r9_qCap : r9.qCap = 32 := rfl
@[simp] theorem r9_nameRx : r9.nameRx = 5 := rfl
@[simp] theorem r9_nameVis : r9.nameVis = 4 := rfl
@[simp] theorem r9_sysexId : r9.sysexId = [0xF0, 0x00, 0x21, 0x7B] := rfl
@[simp] theorem r9_timeW : r9.timeW = 32 := rfl
@[simp] theorem r9_cntW : r9.cntW = 32 := rfl
@[simp] theorem r9_accW : r9.accW = 8 := rfl
@[simp] theorem r9_stepDiv : r9.stepDiv = 4 := rfl
@[simp] theorem r9_tFast : r9.tFast = 1 := rfl
@[simp] theorem r9_tMed : r9.tMed = 5 := rfl
@[simp] theorem r9_mFast : r9.mFast = 4 := rfl
@[simp] theorem r9_mMed : r9.mMed = 2 := rfl
@[simp] theorem r9_mSlow : r9.mSlow = 1 := rfl
@[simp] theorem r9_tDeb : r9.tDeb = 50 := rfl
@[simp] theorem r9_tNav : r9.tNav = 2 := rfl
@[simp] theorem r9_tNavBtn : r9.tNavBtn = 50 := rfl
@[simp] theorem r9_valMinDef : r9.valMinDef = 0 := rfl
@[simp] theorem r9_valMaxDef : r9.valMaxDef = 127 := rfl
@[simp] theorem r9_mtcF : r9.mtcF = 30 := rfl
@[simp] theorem r9_mtcS : r9.mtcS = 60 := rfl
@[simp] theorem r9_mtcM : r9.mtcM = 60 := rfl
@[simp] theorem r9_mtcH : r9.mtcH = 24 := rfl
@[simp] theorem fixture_valued : fixture.valued = r9 := rfl

end Sys2Proof.Config
end

