-- ==== Sys2Proof/Laws/Ops.lean ====
section
/-! SUPPORT. One lemma for each shared operation that says once everything it can do, cited instead of unfolding it:
the ring, the errors, the bank operations, the quadrature sample, the timebase, the packets, the frames and the services. -/

namespace Sys2Proof.Machine

/-! ## The outbound ring -/

namespace OutQueue

theorem count_lt (q : OutQueue) : q.count.val < 33 := q.count.isLt

theorem head_lt (q : OutQueue) : q.head.val < 32 := q.head.isLt

theorem length_contents (q : OutQueue) : q.contents.length = q.count.val := by simp [contents]

theorem push_count (q : OutQueue) (m : Msg) (h : q.count.val < 32) : (q.push m).count.val = q.count.val + 1 := by
  have e : (q.push m).count.val = (q.count.val + 1) % 33 := Fin.val_add q.count 1
  omega

@[simp] theorem push_head (q : OutQueue) (m : Msg) : (q.push m).head = q.head := rfl

theorem pop_count (q : OutQueue) (h : q.count.val ≠ 0) : q.pop.count.val = q.count.val - 1 := by
  have e : q.pop.count.val = (33 - 1 + q.count.val) % 33 := by rw [pop, Fin.sub_def]; rfl
  have := q.count_lt
  omega

theorem pop_head (q : OutQueue) : q.pop.head.val = (q.head.val + 1) % 32 := by
  simp [pop, Fin.val_add]

/-- An entry pushed on a ring that is not full joins its contents at the end; no other cell held is touched. -/
theorem contents_push (q : OutQueue) (m : Msg) (h : q.count.val < 32) :
    (q.push m).contents = q.contents ++ [m] := by
  have hc := push_count q m h
  simp only [contents, hc, List.range_succ, List.map_append, List.map_cons, List.map_nil]
  congr 1
  · apply List.map_congr_left
    intro k hk
    have hk' := List.mem_range.mp hk
    simp only [cell, push]
    rw [Vector.getElem_set_ne]
    have := q.head_lt
    show ¬(q.head.val + q.count.val) % 32 = (q.head.val + k) % 32
    omega
  · simp [cell, push]

/-- The oldest entry of a ring that is not empty, and what is left when it is taken. -/
theorem contents_pop (q : OutQueue) (h : q.count.val ≠ 0) : q.contents = q.cell 0 :: q.pop.contents := by
  have hc := pop_count q h
  obtain ⟨n, hn⟩ := Nat.exists_eq_succ_of_ne_zero h
  have hc' : q.pop.count.val = n := by omega
  simp only [contents, hn, hc', List.range_succ_eq_map, List.map_cons, List.map_map]
  congr 1
  apply List.map_congr_left
  intro k _
  simp only [Function.comp, cell, pop_head]
  have e : (q.head.val + k.succ) % 32 = ((q.head.val + 1) % 32 + k) % 32 := by omega
  simp only [e]
  rfl

theorem full_iff (n : Nat) (q : OutQueue) : q.full n = true ↔ min n 32 ≤ q.count.val := decide_eq_true_iff

/-- Under the capacity of 00_scope.md R9 the queue is full with 32 messages and not before. -/
theorem full_r9 (q : OutQueue) : q.full Config.r9.qCap = decide (q.count.val = 32) := by
  have := q.count_lt
  rw [Bool.eq_iff_iff, full_iff, decide_eq_true_iff, Config.r9_qCap]
  omega

end OutQueue

/-! ## Errors -/

/-- An absorbed error changes nothing but the error counter. -/
theorem raiseError_eq (e : ErrorKind) (s : State) :
    raiseError e s = { s with errorCount := (raiseError e s).errorCount } := by cases e <;> rfl

@[simp] theorem raiseError_queueFull (s : State) :
    raiseError .queueFull s = { s with errorCount := s.errorCount + 1 } := rfl
@[simp] theorem raiseError_malformedPacket (s : State) :
    raiseError .malformedPacket s = { s with errorCount := s.errorCount + 1 } := rfl
@[simp] theorem raiseError_mtcInvalid (s : State) :
    raiseError .mtcInvalid s = { s with errorCount := s.errorCount + 1 } := rfl
@[simp] theorem raiseError_undersizedSysEx (s : State) : raiseError .undersizedSysEx s = s := rfl
@[simp] theorem raiseError_busCommunicationFailure (s : State) : raiseError .busCommunicationFailure s = s := rfl

/-! ## ENQ and DRAIN -/

/-- An enqueue under the capacity of 00_scope.md R9. -/
theorem enqueue_r9 (m : Msg) (s : State) (hp : s.cfg.valued = Config.r9) :
    enqueue m s =
      if s.oq.count.val = 32 then { s with errorCount := s.errorCount + 1 } else { s with oq := s.oq.push m } := by
  simp only [enqueue, hp, OutQueue.full_r9, decide_eq_true_eq, raiseError_queueFull]

/-- An enqueue changes the queue and the error counter only. -/
theorem enqueue_frame (m : Msg) (s : State) :
    enqueue m s = { s with oq := (enqueue m s).oq, errorCount := (enqueue m s).errorCount } := by
  unfold enqueue
  split <;> rfl

/-- Everything an enqueue can do, whatever the capacity: the entry joins the contents, or the error counter grows. -/
theorem enqueue_cases (m : Msg) (s : State) :
    (s.oq.count.val < min s.cfg.valued.qCap 32 ∧ enqueue m s = { s with oq := s.oq.push m }) ∨
      (min s.cfg.valued.qCap 32 ≤ s.oq.count.val ∧ enqueue m s = { s with errorCount := s.errorCount + 1 }) := by
  by_cases h : s.oq.full s.cfg.valued.qCap = true
  · exact .inr ⟨(OutQueue.full_iff _ _).mp h, by simp [enqueue, h]⟩
  · refine .inl ⟨?_, by simp [enqueue, h]⟩
    rw [OutQueue.full_iff] at h
    omega

/-- Everything a drain can do: nothing, or the oldest entry goes out whole. -/
theorem drain_cases (s : State) :
    (s.oq.count.val = 0 ∧ drain s = s) ∨
      (s.oq.count.val ≠ 0 ∧ drain s = { s with oq := s.oq.pop }.tx (serialise (s.oq.cell 0))) := by
  by_cases h : s.oq.count.val = 0
  · exact .inl ⟨h, by simp [drain, h]⟩
  · exact .inr ⟨h, by simp [drain, h]⟩

/-! ## Clamped values -/

theorem clamp_bounds {v lo hi : Int} (h : lo ≤ hi) : lo ≤ clamp v lo hi ∧ clamp v lo hi ≤ hi := by
  unfold clamp
  split
  · omega
  · split <;> omega

theorem toNat_ofInt7 {v : Int} (h0 : 0 ≤ v) (h1 : v ≤ 127) : ((BitVec.ofInt 7 v).toNat : Int) = v := by
  rw [BitVec.toNat_ofInt]
  omega

/-- The clamped value, as a number. -/
theorem clampToSlot_toNat (x : Slot) (v : Int) (h : x.minValue.toNat ≤ x.maxValue.toNat) :
    ((clampToSlot x v).toNat : Int) = clamp v x.minValue.toNat x.maxValue.toNat := by
  have hb := clamp_bounds (v := v) (show (x.minValue.toNat : Int) ≤ x.maxValue.toNat by exact_mod_cast h)
  have := x.maxValue.isLt
  exact toNat_ofInt7 (by omega) (by omega)

/-- The clamped value lies between the slot's bounds. -/
theorem clampToSlot_bounds (x : Slot) (v : Int) (h : x.minValue.toNat ≤ x.maxValue.toNat) :
    x.minValue.toNat ≤ (clampToSlot x v).toNat ∧ (clampToSlot x v).toNat ≤ x.maxValue.toNat := by
  have hb := clamp_bounds (v := v) (show (x.minValue.toNat : Int) ≤ x.maxValue.toNat by exact_mod_cast h)
  have he := clampToSlot_toNat x v h
  omega

theorem slotOk_iff (n : Nat) (x : Slot) : slotOk n x = true ↔ x.wf n := by simp [slotOk, Slot.wf, and_assoc]

/-! ## The bank-state operations -/

/-- What an operation that sends a message may change: slots, queue and error counter. -/
theorem applyStep_frame (index : Nat) (delta : Int) (bank : Nat) (s : State) :
    applyStep index delta bank s =
      { s with slots := (applyStep index delta bank s).slots, oq := (applyStep index delta bank s).oq,
               errorCount := (applyStep index delta bank s).errorCount } := by
  unfold applyStep
  split
  · unfold applyStepAt
    dsimp only
    rw [enqueue_frame]
    rfl
  · rfl

theorem applyStep_out_of_range (index : Nat) (delta : Int) (bank : Nat) (s : State) (h : ¬(index < 16 ∧ bank < 4)) :
    applyStep index delta bank s = s := by simp [applyStep, h]

theorem applySw_frame (sw bank : Nat) (s : State) :
    applySw sw bank s =
      { s with slots := (applySw sw bank s).slots, oq := (applySw sw bank s).oq,
               errorCount := (applySw sw bank s).errorCount } := by
  unfold applySw
  split
  · split
    · unfold toggleMute
      dsimp only
      rw [enqueue_frame]
      rfl
    · unfold toggleSolo
      dsimp only
      rw [enqueue_frame]
      rfl
  · rfl

theorem applySw_out_of_range (sw bank : Nat) (s : State) (h : ¬(sw < 16 ∧ bank < 4)) : applySw sw bank s = s := by
  simp [applySw, h]

/-- DAWSYNC changes slots and the display stream only: no message, no error (41_bank_state.md R183). -/
theorem dawSync_frame (track bank : Nat) (value : Option Byte) (color : Option (BitVec 16))
    (name : Option (List Byte)) (s : State) :
    dawSync track bank value color name s =
      { s with slots := (dawSync track bank value color name s).slots,
               out := { s.out with notes := (dawSync track bank value color name s).out.notes } } := by
  unfold dawSync
  split
  · unfold dawSyncAt
    dsimp only
    split <;> rfl
  · rfl

theorem dawSync_out_of_range (track bank : Nat) (value : Option Byte) (color : Option (BitVec 16))
    (name : Option (List Byte)) (s : State) (h : ¬(track < 16 ∧ bank < 4)) :
    dawSync track bank value color name s = s := by simp [dawSync, h]

/-! ## The quadrature sample -/

/-- A code of direction 0 moves the phase and nothing else (40_input_decoder.md R132). -/
theorem quadNext_idle (p : Config.Valued) (accelEn : Bool) (code : BitVec 4) (now : Time) (c : QChan) (h : dirOf code = 0) :
    quadNext p accelEn code now c = ({ c with phase := newPhase code }, none) := by simp [quadNext, h]

/-- The directions are −1, 0 and +1. -/
theorem dirOf_cases (code : BitVec 4) : dirOf code = -1 ∨ dirOf code = 0 ∨ dirOf code = 1 := by
  revert code; decide

/-- The multipliers of R9 are 4, 2 and 1. -/
theorem multiplier_cases (accelEn : Bool) (dt : Nat) :
    multiplier Config.r9 accelEn dt = 4 ∨ multiplier Config.r9 accelEn dt = 2 ∨ multiplier Config.r9 accelEn dt = 1 := by
  unfold multiplier
  split
  · exact .inl rfl
  · split
    · exact .inr (.inl rfl)
    · exact .inr (.inr rfl)

/-- The multiplier of a valid transition, with the numbers of R9. -/
theorem multiplier_r9 (accelEn : Bool) (dt : Nat) :
    multiplier Config.r9 accelEn dt =
      if accelEn = true ∧ dt < 1 then 4 else if accelEn = true ∧ dt < 5 then 2 else 1 := rfl

theorem ofInt8_toInt {a : Int} (h : a.natAbs < 4) : (BitVec.ofInt 8 a).toInt = a := by
  rw [BitVec.toInt_ofInt]
  have h1 : a < 4 := by omega
  have h2 : -4 < a := by omega
  rw [Int.bmod_eq_of_le] <;> omega

/-- The accumulator after a sample is that before it, or lies in −3 to +3 (40_input_decoder.md R137). -/
theorem quadNext_acc (accelEn : Bool) (code : BitVec 4) (now : Time) (c : QChan) :
    (quadNext Config.r9 accelEn code now c).1.acc = c.acc ∨
      (-3 ≤ (quadNext Config.r9 accelEn code now c).1.acc.toInt ∧ (quadNext Config.r9 accelEn code now c).1.acc.toInt ≤ 3) := by
  unfold quadNext
  dsimp only
  split
  · exact .inl rfl
  · right
    split
    · simp
    · rename_i h
      have ht : threshold Config.r9 (multiplier Config.r9 accelEn (tdiff now c.tLast)) ≤ 4 := by
        rcases multiplier_cases accelEn (tdiff now c.tLast) with e | e | e <;> rw [e] <;> decide
      have hlt : (c.acc.toInt + dirOf code).natAbs < 4 := by omega
      dsimp only
      rw [ofInt8_toInt hlt]
      omega

/-- What a sample may change: its channel, slots, queue, error counter and event stream. -/
theorem sampleCode_frame (ch : Fin Config.nCh) (code : BitVec 4) (now : Time) (s : State) :
    sampleCode ch code now s =
      { s with q := (sampleCode ch code now s).q, slots := (sampleCode ch code now s).slots,
               oq := (sampleCode ch code now s).oq, errorCount := (sampleCode ch code now s).errorCount,
               out := { s.out with events := (sampleCode ch code now s).out.events } } := by
  unfold sampleCode
  split
  · rfl
  · unfold couple
    split
    · rw [applyStep_frame]
      rfl
    · rfl

/-- A sample writes its own channel and no other (40_input_decoder.md R131). -/
theorem sampleCode_q (ch : Fin Config.nCh) (code : BitVec 4) (now : Time) (s : State) :
    (sampleCode ch code now s).q = s.q.set ch.val (quadNext s.cfg.valued s.accelEn code now (s.chan ch)).1 := by
  unfold sampleCode
  split
  · rename_i c h; rw [h]; rfl
  · rename_i c delta h
    rw [h]
    unfold couple
    split
    · rw [applyStep_frame]; rfl
    · rfl

/-! ## Timebase, realtime bytes, packets -/

/-- A quarter frame changes the timebase and, when piece 7 fails its test, the error counter. -/
theorem mtcPiece_eq (piece : BitVec 3) (n : BitVec 4) (s : State) :
    mtcPiece piece n s =
      { s with mtc := mtcNext s.cfg.valued piece n s.mtc,
               errorCount := if piece = 7 ∧ (mtcNext s.cfg.valued piece n s.mtc).valid = false then s.errorCount + 1
                             else s.errorCount } := by
  unfold mtcPiece
  dsimp only
  split <;> rfl

/-- A realtime byte changes the timebase, the transport flags and `lastSense` only. -/
theorem realtime_frame (status : Byte) (now : Time) (s : State) :
    realtime status now s =
      { s with mtc := (realtime status now s).mtc, xp := (realtime status now s).xp,
               lastSense := (realtime status now s).lastSense } := by
  unfold realtime
  split <;> rfl

/-- A packet changes the timebase, the transport flags, `lastSense` and the error counter only. -/
theorem receivePacket_frame (header status data1 : Byte) (now : Time) (s : State) :
    receivePacket header status data1 now s =
      { s with mtc := (receivePacket header status data1 now s).mtc,
               xp := (receivePacket header status data1 now s).xp,
               lastSense := (receivePacket header status data1 now s).lastSense,
               errorCount := (receivePacket header status data1 now s).errorCount } := by
  unfold receivePacket
  split
  · rfl
  · unfold quarterFrame; rw [mtcPiece_eq]
  · rw [realtime_frame]
  · rfl

/-! ## Frames -/

/-- The parse of a frame that is built: its own type, track, bank and payload. -/
theorem parseFrame_frameOf (t track bank : Byte) (payload : List Byte) :
    parseFrame Config.r9.sysexId (frameOf t track bank payload) = some (t, track, bank, payload) := by
  simp [parseFrame, frameOf]

theorem length_frameOf (t track bank : Byte) (payload : List Byte) :
    (frameOf t track bank payload).length = payload.length + 8 := by
  simp [frameOf]

/-- The action of a frame changes slots, transport flags and the display stream only. -/
theorem frameAction_frame (t : Nat) (track bank : Byte) (payload : List Byte) (s : State) :
    frameAction t track bank payload s =
      { s with slots := (frameAction t track bank payload s).slots, xp := (frameAction t track bank payload s).xp,
               out := { s.out with notes := (frameAction t track bank payload s).out.notes } } := by
  unfold frameAction
  split
  · rw [dawSync_frame]
  · rw [dawSync_frame]
  · rw [dawSync_frame]
  · split <;> rfl
  · rfl
  · rw [dawSync_frame]

/-- A frame of a known type is counted, and acts when it is long enough. -/
theorem receiveFrame_known (t track bank : Byte) (payload : List Byte) (s : State) (hp : s.cfg.valued = Config.r9)
    (h1 : 1 ≤ t.toNat) (h6 : t.toNat ≤ 6) :
    receiveFrame (frameOf t track bank payload) s =
      if payload.length + 8 < minLen t.toNat then { s with sysexCount := s.sysexCount + 1 }
      else frameAction t.toNat track bank payload { s with sysexCount := s.sysexCount + 1 } := by
  have hn : ¬(t.toNat < 1 ∨ 6 < t.toNat) := by omega
  simp only [receiveFrame, hp, parseFrame_frameOf, length_frameOf, hn, if_false, raiseError_undersizedSysEx]

/-- What a frame may change: slots, transport flags, the two counters and the display stream. -/
theorem receiveFrame_frame (bytes : List Byte) (s : State) :
    receiveFrame bytes s =
      { s with slots := (receiveFrame bytes s).slots, xp := (receiveFrame bytes s).xp,
               errorCount := (receiveFrame bytes s).errorCount, sysexCount := (receiveFrame bytes s).sysexCount,
               out := { s.out with notes := (receiveFrame bytes s).out.notes } } := by
  unfold receiveFrame
  split
  · rfl
  · split
    · rfl
    · dsimp only
      split
      · rfl
      · rw [frameAction_frame]

/-! ## Services and polls -/

/-- What the samples of a service may change: channels, slots, queue, error counter and event stream. -/
theorem serviceChannels_frame (v : Service) (is : List (Fin Config.nMain)) (s : State) :
    serviceChannels v is s =
      { s with q := (serviceChannels v is s).q, slots := (serviceChannels v is s).slots,
               oq := (serviceChannels v is s).oq, errorCount := (serviceChannels v is s).errorCount,
               out := { s.out with events := (serviceChannels v is s).out.events } } := by
  induction is generalizing s with
  | nil => rfl
  | cons i rest ih =>
    simp only [serviceChannels]
    split
    · rw [ih, sample, sampleCode_frame]
    · exact ih s

/-- What the presses of a snapshot may change: slots, queue, error counter and event stream. -/
theorem switchPresses_frame (old new : BitVec 16) (is : List (Fin Config.nSw)) (s : State) :
    switchPresses old new is s =
      { s with slots := (switchPresses old new is s).slots, oq := (switchPresses old new is s).oq,
               errorCount := (switchPresses old new is s).errorCount,
               out := { s.out with events := (switchPresses old new is s).out.events } } := by
  induction is generalizing s with
  | nil => rfl
  | cons i rest ih =>
    simp only [switchPresses]
    split
    · rw [ih, applySw_frame]; rfl
    · exact ih s

/-- The presses of a button snapshot: one event for each index of the list that is pressed, in order. -/
theorem buttonPresses_eq (old new : BitVec 16) (is : List (Fin Config.nBtn)) (s : State) :
    buttonPresses old new is s =
      { s with out := { s.out with events := s.out.events ++
                          (is.filter (fun i => pressed old new i.val)).map Event.buttonChanged } } := by
  induction is generalizing s with
  | nil => simp [buttonPresses]
  | cons i rest ih =>
    simp only [buttonPresses]
    rw [ih]
    by_cases h : pressed old new i.val = true
    · simp [h, State.emit]
    · simp [h]

end Sys2Proof.Machine
end

