-- ==== Sys2Proof/Laws/PerInstr.lean ====
section
/-! SUPPORT. The family EncodePort, one lemma per constructor of `Instr`: the transaction of an instruction stands on the
port of its row's format (30_encoding.md R90, R120, R121; log 2, log 3, log 5). -/

namespace Sys2Proof.Laws

/-- The port of an instruction's format. -/
def portOf : Instr → Port
  | .qcode0000 _ _ => .qcode
  | .qcode0001 _ _ => .qcode
  | .qcode0010 _ _ => .qcode
  | .qcode0011 _ _ => .qcode
  | .qcode0100 _ _ => .qcode
  | .qcode0101 _ _ => .qcode
  | .qcode0110 _ _ => .qcode
  | .qcode0111 _ _ => .qcode
  | .qcode1000 _ _ => .qcode
  | .qcode1001 _ _ => .qcode
  | .qcode1010 _ _ => .qcode
  | .qcode1011 _ _ => .qcode
  | .qcode1100 _ _ => .qcode
  | .qcode1101 _ _ => .qcode
  | .qcode1110 _ _ => .qcode
  | .qcode1111 _ _ => .qcode
  | .pktCv8 _ _ _ _ _ => .pkt4
  | .pktCv9 _ _ _ _ _ => .pkt4
  | .pktCvA _ _ _ _ _ => .pkt4
  | .pktCvB _ _ _ _ _ => .pkt4
  | .pktCvC _ _ _ _ _ => .pkt4
  | .pktCvD _ _ _ _ _ => .pkt4
  | .pktCvE _ _ _ _ _ => .pkt4
  | .pktMtc _ _ _ _ => .pkt4
  | .pktRtF8 _ _ _ _ => .pkt4
  | .pktRtF9 _ _ _ _ => .pkt4
  | .pktRtFA _ _ _ _ => .pkt4
  | .pktRtFB _ _ _ _ => .pkt4
  | .pktRtFC _ _ _ _ => .pkt4
  | .pktRtFD _ _ _ _ => .pkt4
  | .pktRtFE _ _ _ _ => .pkt4
  | .pktRtFF _ _ _ _ => .pkt4
  | .pktIgnored _ _ _ _ _ => .pkt4
  | .qfP0 _ _ => .qf8
  | .qfP1 _ _ => .qf8
  | .qfP2 _ _ => .qf8
  | .qfP3 _ _ => .qf8
  | .qfP4 _ _ => .qf8
  | .qfP5 _ _ => .qf8
  | .qfP6 _ _ => .qf8
  | .qfP7 _ _ => .qf8
  | .sxT01 _ _ _ => .sysex
  | .sxT02 _ _ _ => .sysex
  | .sxT03 _ _ _ => .sysex
  | .sxT04 _ _ _ => .sysex
  | .sxT05 _ _ _ => .sysex
  | .sxT06 _ _ _ => .sysex
  | .sxMalformed _ => .sysex
  | .txControlChange _ _ _ => .cv3
  | .txNoteOn _ _ _ => .cv3
  | .txNoteOff _ _ _ => .cv3
  | .txPitchBend _ _ _ => .cv3
  | .txRealtime _ => .rt1
  | .txSysEx _ => .sysexOut
  | .xport8 _ => .xport8
  | .rgb565 _ _ _ => .rgb565
  | .snap16 _ _ _ => .snap16
  | .qsample _ _ _ => .op
  | .flagset _ => .op
  | .flagclr _ => .op
  | .swpoll _ _ => .op
  | .btnpoll _ _ => .op
  | .navenc _ _ => .op
  | .navbtn _ _ => .op
  | .setaccel _ => .op
  | .applystep _ _ _ => .op
  | .applysw _ _ => .op
  | .dawsync _ _ _ _ _ => .op
  | .setbank _ => .op
  | .resetslot _ _ => .op
  | .resetall => .op
  | .slotread _ _ => .op
  | .cfgwrite _ _ _ => .op
  | .serialize => .op
  | .deserialize _ => .op
  | .enq _ => .op
  | .drain => .op
  | .rxpkt _ _ _ _ _ => .op
  | .rxsysex _ => .op
  | .pack565 _ _ _ => .op
  | .unpack565 _ => .op
  | .mtcqf _ => .op
  | .rt _ _ => .op
  | .statread _ => .op
  | .encservice _ _ _ => .pseudo
  | .sysreset _ => .pseudo
  | .rtbyte _ _ => .pseudo
  | .qframe _ _ => .pseudo
  | .mtcfull _ _ _ _ _ => .pseudo
  | .sx _ _ _ _ => .pseudo
  | .turncw _ _ _ => .pseudo
  | .turnccw _ _ _ => .pseudo

/-- The transaction of `i` stands on the port of its format. -/
def EncodePort.Statement (i : Instr) : Prop := (encode i).port = portOf i

namespace EncodePort

theorem qcode0000 (ch : Fin 17) (now : Time) : Statement (.qcode0000 ch now) := rfl
theorem qcode0001 (ch : Fin 17) (now : Time) : Statement (.qcode0001 ch now) := rfl
theorem qcode0010 (ch : Fin 17) (now : Time) : Statement (.qcode0010 ch now) := rfl
theorem qcode0011 (ch : Fin 17) (now : Time) : Statement (.qcode0011 ch now) := rfl
theorem qcode0100 (ch : Fin 17) (now : Time) : Statement (.qcode0100 ch now) := rfl
theorem qcode0101 (ch : Fin 17) (now : Time) : Statement (.qcode0101 ch now) := rfl
theorem qcode0110 (ch : Fin 17) (now : Time) : Statement (.qcode0110 ch now) := rfl
theorem qcode0111 (ch : Fin 17) (now : Time) : Statement (.qcode0111 ch now) := rfl
theorem qcode1000 (ch : Fin 17) (now : Time) : Statement (.qcode1000 ch now) := rfl
theorem qcode1001 (ch : Fin 17) (now : Time) : Statement (.qcode1001 ch now) := rfl
theorem qcode1010 (ch : Fin 17) (now : Time) : Statement (.qcode1010 ch now) := rfl
theorem qcode1011 (ch : Fin 17) (now : Time) : Statement (.qcode1011 ch now) := rfl
theorem qcode1100 (ch : Fin 17) (now : Time) : Statement (.qcode1100 ch now) := rfl
theorem qcode1101 (ch : Fin 17) (now : Time) : Statement (.qcode1101 ch now) := rfl
theorem qcode1110 (ch : Fin 17) (now : Time) : Statement (.qcode1110 ch now) := rfl
theorem qcode1111 (ch : Fin 17) (now : Time) : Statement (.qcode1111 ch now) := rfl
theorem pktCv8 (hi : BitVec 4) (status data1 data2 : Byte) (now : Time) : Statement (.pktCv8 hi status data1 data2 now) := rfl
theorem pktCv9 (hi : BitVec 4) (status data1 data2 : Byte) (now : Time) : Statement (.pktCv9 hi status data1 data2 now) := rfl
theorem pktCvA (hi : BitVec 4) (status data1 data2 : Byte) (now : Time) : Statement (.pktCvA hi status data1 data2 now) := rfl
theorem pktCvB (hi : BitVec 4) (status data1 data2 : Byte) (now : Time) : Statement (.pktCvB hi status data1 data2 now) := rfl
theorem pktCvC (hi : BitVec 4) (status data1 data2 : Byte) (now : Time) : Statement (.pktCvC hi status data1 data2 now) := rfl
theorem pktCvD (hi : BitVec 4) (status data1 data2 : Byte) (now : Time) : Statement (.pktCvD hi status data1 data2 now) := rfl
theorem pktCvE (hi : BitVec 4) (status data1 data2 : Byte) (now : Time) : Statement (.pktCvE hi status data1 data2 now) := rfl
theorem pktMtc (header qf data2 : Byte) (now : Time) : Statement (.pktMtc header qf data2 now) := rfl
theorem pktRtF8 (hi : BitVec 4) (data1 data2 : Byte) (now : Time) : Statement (.pktRtF8 hi data1 data2 now) := rfl
theorem pktRtF9 (hi : BitVec 4) (data1 data2 : Byte) (now : Time) : Statement (.pktRtF9 hi data1 data2 now) := rfl
theorem pktRtFA (hi : BitVec 4) (data1 data2 : Byte) (now : Time) : Statement (.pktRtFA hi data1 data2 now) := rfl
theorem pktRtFB (hi : BitVec 4) (data1 data2 : Byte) (now : Time) : Statement (.pktRtFB hi data1 data2 now) := rfl
theorem pktRtFC (hi : BitVec 4) (data1 data2 : Byte) (now : Time) : Statement (.pktRtFC hi data1 data2 now) := rfl
theorem pktRtFD (hi : BitVec 4) (data1 data2 : Byte) (now : Time) : Statement (.pktRtFD hi data1 data2 now) := rfl
theorem pktRtFE (hi : BitVec 4) (data1 data2 : Byte) (now : Time) : Statement (.pktRtFE hi data1 data2 now) := rfl
theorem pktRtFF (hi : BitVec 4) (data1 data2 : Byte) (now : Time) : Statement (.pktRtFF hi data1 data2 now) := rfl
theorem pktIgnored (header status data1 data2 : Byte) (now : Time) : Statement (.pktIgnored header status data1 data2 now) := rfl
theorem qfP0 (x : BitVec 1) (n : BitVec 4) : Statement (.qfP0 x n) := rfl
theorem qfP1 (x : BitVec 1) (n : BitVec 4) : Statement (.qfP1 x n) := rfl
theorem qfP2 (x : BitVec 1) (n : BitVec 4) : Statement (.qfP2 x n) := rfl
theorem qfP3 (x : BitVec 1) (n : BitVec 4) : Statement (.qfP3 x n) := rfl
theorem qfP4 (x : BitVec 1) (n : BitVec 4) : Statement (.qfP4 x n) := rfl
theorem qfP5 (x : BitVec 1) (n : BitVec 4) : Statement (.qfP5 x n) := rfl
theorem qfP6 (x : BitVec 1) (n : BitVec 4) : Statement (.qfP6 x n) := rfl
theorem qfP7 (x : BitVec 1) (n : BitVec 4) : Statement (.qfP7 x n) := rfl
theorem sxT01 (track bank : Byte) (payload : List Byte) : Statement (.sxT01 track bank payload) := rfl
theorem sxT02 (track bank : Byte) (payload : List Byte) : Statement (.sxT02 track bank payload) := rfl
theorem sxT03 (track bank : Byte) (payload : List Byte) : Statement (.sxT03 track bank payload) := rfl
theorem sxT04 (track bank : Byte) (payload : List Byte) : Statement (.sxT04 track bank payload) := rfl
theorem sxT05 (track bank : Byte) (payload : List Byte) : Statement (.sxT05 track bank payload) := rfl
theorem sxT06 (track bank : Byte) (payload : List Byte) : Statement (.sxT06 track bank payload) := rfl
theorem sxMalformed (bytes : List Byte) : Statement (.sxMalformed bytes) := rfl
theorem txControlChange (c : BitVec 4) (k v : BitVec 7) : Statement (.txControlChange c k v) := rfl
theorem txNoteOn (c : BitVec 4) (n v : BitVec 7) : Statement (.txNoteOn c n v) := rfl
theorem txNoteOff (c : BitVec 4) (n v : BitVec 7) : Statement (.txNoteOff c n v) := rfl
theorem txPitchBend (c : BitVec 4) (l m : BitVec 7) : Statement (.txPitchBend c l m) := rfl
theorem txRealtime (b : Byte) : Statement (.txRealtime b) := rfl
theorem txSysEx (bytes : List Byte) : Statement (.txSysEx bytes) := rfl
theorem xport8 (b : Byte) : Statement (.xport8 b) := rfl
theorem rgb565 (r : BitVec 5) (g : BitVec 6) (b : BitVec 5) : Statement (.rgb565 r g b) := rfl
theorem snap16 (button : Bool) (snap : BitVec 16) (now : Time) : Statement (.snap16 button snap now) := rfl
theorem qsample (ch : Fin 17) (ph : BitVec 2) (now : Time) : Statement (.qsample ch ph now) := rfl
theorem flagset (h : Nat) : Statement (.flagset h) := rfl
theorem flagclr (h : Nat) : Statement (.flagclr h) := rfl
theorem swpoll (snap : BitVec 16) (now : Time) : Statement (.swpoll snap now) := rfl
theorem btnpoll (snap : BitVec 16) (now : Time) : Statement (.btnpoll snap now) := rfl
theorem navenc (ph : BitVec 2) (now : Time) : Statement (.navenc ph now) := rfl
theorem navbtn (lvl : Bool) (now : Time) : Statement (.navbtn lvl now) := rfl
theorem setaccel (en : Bool) : Statement (.setaccel en) := rfl
theorem applystep (index : Byte) (delta : BitVec 8) (bank : Byte) : Statement (.applystep index delta bank) := rfl
theorem applysw (sw bank : Byte) : Statement (.applysw sw bank) := rfl
theorem dawsync (track bank : Byte) (value : Option Byte) (color : Option (BitVec 16)) (name : Option (List Byte)) : Statement (.dawsync track bank value color name) := rfl
theorem setbank (bank : Byte) : Statement (.setbank bank) := rfl
theorem resetslot (bank track : Byte) : Statement (.resetslot bank track) := rfl
theorem resetall : Statement (.resetall) := rfl
theorem slotread (bank track : Byte) : Statement (.slotread bank track) := rfl
theorem cfgwrite (bank track : Byte) (edit : CfgEdit) : Statement (.cfgwrite bank track edit) := rfl
theorem serialize : Statement (.serialize) := rfl
theorem deserialize (blob : List Byte) : Statement (.deserialize blob) := rfl
theorem enq (msg : Msg) : Statement (.enq msg) := rfl
theorem drain : Statement (.drain) := rfl
theorem rxpkt (header status data1 data2 : Byte) (now : Time) : Statement (.rxpkt header status data1 data2 now) := rfl
theorem rxsysex (bytes : List Byte) : Statement (.rxsysex bytes) := rfl
theorem pack565 (r g b : Byte) : Statement (.pack565 r g b) := rfl
theorem unpack565 (c : BitVec 16) : Statement (.unpack565 c) := rfl
theorem mtcqf (b : Byte) : Statement (.mtcqf b) := rfl
theorem rt (status : Byte) (now : Time) : Statement (.rt status now) := rfl
theorem statread (i : Byte) : Statement (.statread i) := rfl
theorem encservice (h : Nat) (ph : Vector (BitVec 2) 16) (now : Time) : Statement (.encservice h ph now) := rfl
theorem sysreset (now : Time) : Statement (.sysreset now) := rfl
theorem rtbyte (s : Byte) (now : Time) : Statement (.rtbyte s now) := rfl
theorem qframe (p : BitVec 3) (n : BitVec 4) : Statement (.qframe p n) := rfl
theorem mtcfull (hh mm ss ff : Byte) (r : BitVec 2) : Statement (.mtcfull hh mm ss ff r) := rfl
theorem sx (t track bank : Byte) (payload : List Byte) : Statement (.sx t track bank payload) := rfl
theorem turncw (ch : Fin 17) (t0 dt : Time) : Statement (.turncw ch t0 dt) := rfl
theorem turnccw (ch : Fin 17) (t0 dt : Time) : Statement (.turnccw ch t0 dt) := rfl

end EncodePort

end Sys2Proof.Laws
end

