-- ==== Sys2Proof/Tests/Slice0.lean ====
section
/-! SUPPORT. Tests: ill-formed instructions refused, the decoding of a transaction written out for every constructor, one
step of small states against the vectors and programs of 95_test_vectors.md, and a witness for the hypotheses of every
obligation that has any. -/

namespace Sys2Proof.Tests

open Sys2Proof Sys2Proof.Machine

/-! ## WellFormed refuses -/

theorem test_wf_pktMtc : Instr.wellFormed (.pktMtc 0x08 0 0 0) = false := by decide
theorem test_wf_pktIgnored : Instr.wellFormed (.pktIgnored 0x0F 0xF8 0 0 0) = false := by decide
theorem test_wf_sxMalformed :
    Instr.wellFormed (.sxMalformed [0xF0, 0x00, 0x21, 0x7B, 0x02, 0x03, 0x00, 0x40, 0xF7]) = false := by decide
theorem test_wf_flagset : Instr.wellFormed (.flagset 256) = false := by decide
theorem test_wf_flagclr : Instr.wellFormed (.flagclr 256) = false := by decide
theorem test_wf_dawsync : Instr.wellFormed (.dawsync 0 0 none none (some [1, 2, 3, 4, 5, 6])) = false := by decide
theorem test_wf_cfgwrite : Instr.wellFormed (.cfgwrite 0 0 (.localValue 256)) = false := by decide
theorem test_wf_enq : Instr.wellFormed (.enq (.pitchBend 1 32768)) = false := by decide
theorem test_wf_rt : Instr.wellFormed (.rt 0xF7 0) = false := by decide
theorem test_wf_encservice : Instr.wellFormed (.encservice 256 (Vector.replicate 16 0) 0) = false := by decide
theorem test_wf_rtbyte : Instr.wellFormed (.rtbyte 0xF7 0) = false := by decide

/-! ## Decoding, every constructor -/

/-- 30_encoding.md R91, R92: the sixteen codes, on channel 2 at time 5. -/
theorem test_decode_qcode :
    decode ⟨.qcode, [0b0000, 2, 0, 0, 0, 5]⟩ = .ok (.qcode0000 2 5) ∧
    decode ⟨.qcode, [0b0001, 2, 0, 0, 0, 5]⟩ = .ok (.qcode0001 2 5) ∧
    decode ⟨.qcode, [0b0010, 2, 0, 0, 0, 5]⟩ = .ok (.qcode0010 2 5) ∧
    decode ⟨.qcode, [0b0011, 2, 0, 0, 0, 5]⟩ = .ok (.qcode0011 2 5) ∧
    decode ⟨.qcode, [0b0100, 2, 0, 0, 0, 5]⟩ = .ok (.qcode0100 2 5) ∧
    decode ⟨.qcode, [0b0101, 2, 0, 0, 0, 5]⟩ = .ok (.qcode0101 2 5) ∧
    decode ⟨.qcode, [0b0110, 2, 0, 0, 0, 5]⟩ = .ok (.qcode0110 2 5) ∧
    decode ⟨.qcode, [0b0111, 2, 0, 0, 0, 5]⟩ = .ok (.qcode0111 2 5) ∧
    decode ⟨.qcode, [0b1000, 2, 0, 0, 0, 5]⟩ = .ok (.qcode1000 2 5) ∧
    decode ⟨.qcode, [0b1001, 2, 0, 0, 0, 5]⟩ = .ok (.qcode1001 2 5) ∧
    decode ⟨.qcode, [0b1010, 2, 0, 0, 0, 5]⟩ = .ok (.qcode1010 2 5) ∧
    decode ⟨.qcode, [0b1011, 2, 0, 0, 0, 5]⟩ = .ok (.qcode1011 2 5) ∧
    decode ⟨.qcode, [0b1100, 2, 0, 0, 0, 5]⟩ = .ok (.qcode1100 2 5) ∧
    decode ⟨.qcode, [0b1101, 2, 0, 0, 0, 5]⟩ = .ok (.qcode1101 2 5) ∧
    decode ⟨.qcode, [0b1110, 2, 0, 0, 0, 5]⟩ = .ok (.qcode1110 2 5) ∧
    decode ⟨.qcode, [0b1111, 16, 0, 0, 1, 0]⟩ = .ok (.qcode1111 16 256) := by decide

/-- 30_encoding.md R93, R94: channel voice by code-index number alone, whatever the status. -/
theorem test_decode_pktCv :
    decode ⟨.pkt4, [0x18, 0x80, 60, 0, 0, 0, 0, 9]⟩ = .ok (.pktCv8 1 0x80 60 0 9) ∧
    decode ⟨.pkt4, [0x09, 0x90, 60, 1, 0, 0, 0, 9]⟩ = .ok (.pktCv9 0 0x90 60 1 9) ∧
    decode ⟨.pkt4, [0x0A, 0xA0, 60, 1, 0, 0, 0, 9]⟩ = .ok (.pktCvA 0 0xA0 60 1 9) ∧
    decode ⟨.pkt4, [0x0B, 0xF1, 7, 1, 0, 0, 0, 9]⟩ = .ok (.pktCvB 0 0xF1 7 1 9) ∧
    decode ⟨.pkt4, [0x0C, 0xC0, 7, 0, 0, 0, 0, 9]⟩ = .ok (.pktCvC 0 0xC0 7 0 9) ∧
    decode ⟨.pkt4, [0x0D, 0xD0, 7, 0, 0, 0, 0, 9]⟩ = .ok (.pktCvD 0 0xD0 7 0 9) ∧
    decode ⟨.pkt4, [0x0E, 0xE0, 0, 64, 0, 0, 0, 9]⟩ = .ok (.pktCvE 0 0xE0 0 64 9) := by decide

/-- 30_encoding.md R94, R95, and the packets of 95_test_vectors.md P3. -/
theorem test_decode_packets :
    decode ⟨.pkt4, [0x02, 0xF1, 0x04, 0x00, 0, 0, 0, 0]⟩ = .ok (.pktMtc 0x02 0x04 0 0) ∧
    decode ⟨.pkt4, [0x0F, 0xF8, 0, 0, 0, 0, 0, 1]⟩ = .ok (.pktRtF8 0 0 0 1) ∧
    decode ⟨.pkt4, [0x0F, 0xF9, 0, 0, 0, 0, 0, 1]⟩ = .ok (.pktRtF9 0 0 0 1) ∧
    decode ⟨.pkt4, [0x0F, 0xFA, 0, 0, 0, 0, 0x07, 0xD0]⟩ = .ok (.pktRtFA 0 0 0 2000) ∧
    decode ⟨.pkt4, [0x0F, 0xFB, 0, 0, 0, 0, 0, 1]⟩ = .ok (.pktRtFB 0 0 0 1) ∧
    decode ⟨.pkt4, [0x0F, 0xFC, 0, 0, 0, 0, 0x0A, 0x28]⟩ = .ok (.pktRtFC 0 0 0 2600) ∧
    decode ⟨.pkt4, [0x0F, 0xFD, 0, 0, 0, 0, 0, 1]⟩ = .ok (.pktRtFD 0 0 0 1) ∧
    decode ⟨.pkt4, [0x0F, 0xFE, 0, 0, 0, 0, 0x09, 0xC4]⟩ = .ok (.pktRtFE 0 0 0 2500) ∧
    decode ⟨.pkt4, [0xFF, 0xFF, 0, 0, 0, 0, 0x0B, 0xB8]⟩ = .ok (.pktRtFF 0xF 0 0 3000) ∧
    decode ⟨.pkt4, [0x0F, 0xF7, 1, 2, 0, 0, 0, 1]⟩ = .ok (.pktIgnored 0x0F 0xF7 1 2 1) := by decide

/-- 30_encoding.md R104: `0bxpppnnnn`. -/
theorem test_decode_quarter :
    decode ⟨.qf8, [0b00000100]⟩ = .ok (.qfP0 0 4) ∧ decode ⟨.qf8, [0b10010001]⟩ = .ok (.qfP1 1 1) ∧
    decode ⟨.qf8, [0b00100011]⟩ = .ok (.qfP2 0 3) ∧ decode ⟨.qf8, [0b00111111]⟩ = .ok (.qfP3 0 15) ∧
    decode ⟨.qf8, [0b01000010]⟩ = .ok (.qfP4 0 2) ∧ decode ⟨.qf8, [0b01010000]⟩ = .ok (.qfP5 0 0) ∧
    decode ⟨.qf8, [0b01100001]⟩ = .ok (.qfP6 0 1) ∧ decode ⟨.qf8, [0b11110100]⟩ = .ok (.qfP7 1 4) := by decide

/-- 30_encoding.md R101, R102, with the frames of 43_inbound_sysex.md R250 to R255. -/
theorem test_decode_frames :
    decode ⟨.sysex, [0xF0, 0x00, 0x21, 0x7B, 0x01, 0x00, 0x00, 0xF8, 0xFC, 0xF8, 0xF7]⟩ =
      .ok (.sxT01 0 0 [0xF8, 0xFC, 0xF8]) ∧
    decode ⟨.sysex, [0xF0, 0x00, 0x21, 0x7B, 0x02, 0x03, 0x00, 0x40, 0xF7]⟩ = .ok (.sxT02 3 0 [0x40]) ∧
    decode ⟨.sysex, [0xF0, 0x00, 0x21, 0x7B, 0x03, 0x01, 0x00, 0x4B, 0x49, 0x43, 0x4B, 0x31, 0x32, 0xF7]⟩ =
      .ok (.sxT03 1 0 [0x4B, 0x49, 0x43, 0x4B, 0x31, 0x32]) ∧
    decode ⟨.sysex, [0xF0, 0x00, 0x21, 0x7B, 0x04, 0x0F, 0x02, 0x7F, 0xF7]⟩ = .ok (.sxT04 15 2 [0x7F]) ∧
    decode ⟨.sysex, [0xF0, 0x00, 0x21, 0x7B, 0x05, 0x00, 0x00, 0x03, 0xF7]⟩ = .ok (.sxT05 0 0 [0x03]) ∧
    decode ⟨.sysex, [0xF0, 0x00, 0x21, 0x7B, 0x06, 0x05, 0x00, 0x7F, 0x07, 0x03, 0x07, 0xF7]⟩ =
      .ok (.sxT06 5 0 [0x7F, 0x07, 0x03, 0x07]) ∧
    decode ⟨.sysex, [0xF0, 0x00, 0x21, 0x7B, 0x07, 0x00, 0x00, 0xF7]⟩ =
      .ok (.sxMalformed [0xF0, 0x00, 0x21, 0x7B, 0x07, 0x00, 0x00, 0xF7]) := by decide

/-- 30_encoding.md R96 to R100, with the bytes of 42_outbound.md R210 to R216. -/
theorem test_decode_tx :
    decode ⟨.cv3, [0xB2, 0x7A, 0x7F]⟩ = .ok (.txControlChange 2 122 127) ∧
    decode ⟨.cv3, [0x90, 0x3C, 0x7F]⟩ = .ok (.txNoteOn 0 60 127) ∧
    decode ⟨.cv3, [0x8F, 0x3C, 0x00]⟩ = .ok (.txNoteOff 15 60 0) ∧
    decode ⟨.cv3, [0xE0, 0x3F, 0x40]⟩ = .ok (.txPitchBend 0 63 64) ∧
    decode ⟨.rt1, [0xFC]⟩ = .ok (.txRealtime 0xFC) ∧
    decode ⟨.sysexOut, [0xF0, 0x01, 0xF7]⟩ = .ok (.txSysEx [0xF0, 0x01, 0xF7]) := by decide

/-- 30_encoding.md R106, R107, R109. -/
theorem test_decode_values :
    decode ⟨.xport8, [0b00000101]⟩ = .ok (.xport8 5) ∧
    decode ⟨.rgb565, [0b11111000, 0b00100001]⟩ = .ok (.rgb565 31 1 1) ∧
    decode ⟨.snap16, [0xFE, 0xFB, 0, 0, 0, 0, 60]⟩ = .ok (.snap16 false 0xFEFB 60) ∧
    decode ⟨.snap16, [0xFF, 0xEE, 1, 0, 0, 0, 100]⟩ = .ok (.snap16 true 0xFFEE 100) := by decide

/-- 30_encoding.md R120, numbers 10 to 17; the encodings of 95_test_vectors.md P1 and P6. -/
theorem test_decode_decoder_operations :
    decode ⟨.op, [0x10, 0x00, 0x01, 0x00, 0x00, 0x03, 0xE8]⟩ = .ok (.qsample 0 0b01 1000) ∧
    decode ⟨.op, [0x11, 0x00]⟩ = .ok (.flagset 0) ∧ decode ⟨.op, [0x12, 0x01]⟩ = .ok (.flagclr 1) ∧
    decode ⟨.op, [0x13, 0xFE, 0xFB, 0x00, 0x00, 0x00, 0x3C]⟩ = .ok (.swpoll 0xFEFB 60) ∧
    decode ⟨.op, [0x14, 0xFF, 0xEE, 0x00, 0x00, 0x00, 0x64]⟩ = .ok (.btnpoll 0xFFEE 100) ∧
    decode ⟨.op, [0x15, 0x02, 0x00, 0x00, 0x00, 0x02]⟩ = .ok (.navenc 0b10 2) ∧
    decode ⟨.op, [0x16, 0x00, 0x00, 0x00, 0x00, 0x64]⟩ = .ok (.navbtn false 100) ∧
    decode ⟨.op, [0x17, 0x01]⟩ = .ok (.setaccel true) := by decide

/-- 30_encoding.md R120, numbers 20 to 29; the encodings of 95_test_vectors.md P1 and P4. -/
theorem test_decode_bank_operations :
    decode ⟨.op, [0x20, 0x00, 0x01, 0x00]⟩ = .ok (.applystep 0 1 0) ∧
    decode ⟨.op, [0x21, 0x08, 0x03]⟩ = .ok (.applysw 8 3) ∧
    decode ⟨.op, [0x22, 0x03, 0x01, 0x03, 0x40, 0xF8, 0x00]⟩ = .ok (.dawsync 3 1 (some 64) (some 0xF800) none) ∧
    decode ⟨.op, [0x23, 0x01]⟩ = .ok (.setbank 1) ∧ decode ⟨.op, [0x24, 0x01, 0x02]⟩ = .ok (.resetslot 1 2) ∧
    decode ⟨.op, [0x25]⟩ = .ok .resetall ∧ decode ⟨.op, [0x26, 0x03, 0x0F]⟩ = .ok (.slotread 3 15) ∧
    decode ⟨.op, [0x27, 0x00, 0x02, 0x04, 0x78]⟩ = .ok (.cfgwrite 0 2 (.localValue 120)) ∧
    decode ⟨.op, [0x28]⟩ = .ok .serialize ∧ decode ⟨.op, [0x29, 0x55]⟩ = .ok (.deserialize [0x55]) := by decide

/-- 30_encoding.md R120, numbers 30 to 46; the encodings of 95_test_vectors.md P2 and P3. -/
theorem test_decode_protocol_operations :
    decode ⟨.op, [0x30, 0x00, 0x00, 0x07, 0x01]⟩ = .ok (.enq (.controlChange 1 7 1)) ∧
    decode ⟨.op, [0x31]⟩ = .ok .drain ∧
    decode ⟨.op, [0x40, 0x02, 0xF1, 0x04, 0x00, 0x00, 0x00, 0x00, 0x00]⟩ = .ok (.rxpkt 0x02 0xF1 0x04 0 0) ∧
    decode ⟨.op, [0x41, 0xF0, 0x00, 0x21, 0x7B, 0x05, 0x00, 0x00, 0x03, 0xF7]⟩ =
      .ok (.rxsysex [0xF0, 0x00, 0x21, 0x7B, 0x05, 0x00, 0x00, 0x03, 0xF7]) ∧
    decode ⟨.op, [0x42, 0xF8, 0xFC, 0xF8]⟩ = .ok (.pack565 0xF8 0xFC 0xF8) ∧
    decode ⟨.op, [0x43, 0x07, 0xE0]⟩ = .ok (.unpack565 0x07E0) ∧ decode ⟨.op, [0x44, 0x76]⟩ = .ok (.mtcqf 0x76) ∧
    decode ⟨.op, [0x45, 0xFE, 0x00, 0x01, 0xE2, 0x40]⟩ = .ok (.rt 0xFE 123456) ∧
    decode ⟨.op, [0x46, 0x03]⟩ = .ok (.statread 3) := by decide

/-- 30_encoding.md R121; the port numbers are the model's (log 5). -/
theorem test_decode_pseudo :
    decode ⟨.pseudo, [0, 1, 1, 0, 0, 0, 0, 0, 0, 0, 0, 0, 0, 0, 0, 0, 0, 3, 0, 0, 0, 9]⟩ =
      .ok (.encservice 1 #v[1, 0, 0, 0, 0, 0, 0, 0, 0, 0, 0, 0, 0, 0, 0, 3] 9) ∧
    decode ⟨.pseudo, [1, 0, 0, 3, 0x84]⟩ = .ok (.sysreset 900) ∧
    decode ⟨.pseudo, [2, 0xFA, 0, 0, 0, 1]⟩ = .ok (.rtbyte 0xFA 1) ∧
    decode ⟨.pseudo, [3, 7, 6]⟩ = .ok (.qframe 7 6) ∧
    decode ⟨.pseudo, [4, 1, 2, 3, 4, 3]⟩ = .ok (.mtcfull 1 2 3 4 3) ∧
    decode ⟨.pseudo, [5, 2, 3, 0, 0x40]⟩ = .ok (.sx 2 3 0 [0x40]) ∧
    decode ⟨.pseudo, [6, 3, 0, 0, 0, 100, 0, 0, 0, 1]⟩ = .ok (.turncw 3 100 1) ∧
    decode ⟨.pseudo, [7, 16, 0, 0, 0, 200, 0, 0, 0, 1]⟩ = .ok (.turnccw 16 200 1) := by decide

/-- What the ports cannot carry (93_implementation_defined.md U21). -/
theorem test_decode_rejects :
    decode ⟨.op, [0x18]⟩ = .error .unknownOperation ∧ decode ⟨.op, [0x13, 0]⟩ = .error .wrongLength ∧
    decode ⟨.op, [0x10, 17, 0, 0, 0, 0, 0]⟩ = .error .badOperand ∧
    decode ⟨.op, [0x10, 0, 4, 0, 0, 0, 0]⟩ = .error .badOperand ∧
    decode ⟨.cv3, [0xC0, 0, 0]⟩ = .error .badMessage ∧ decode ⟨.cv3, [0xB0, 0x80, 0]⟩ = .error .badMessage := by decide

/-- Rows of the opcode table, numbered as it numbers them. -/
theorem test_decode_table :
    decodeTableWord 4 0xD = some (.qcode1101 0 0) ∧ decodeTableWord 32 0x0FFA0000 = some (.pktRtFA 0 0 0 0) ∧
    decodeTableWord 40 0xF000217B02 = some (.sxT02 0 0 [0]) ∧ decodeTableWord 24 0xB00000 = some (.txControlChange 0 0 0) ∧
    decodeTableWord 8 0x70 = some (.qfP7 0 0) ∧ decodeTableWord 8 0x31 = some .drain := by decide

/-! ## One step each -/

/-- `exec i s` answers a next state of which `p` holds. -/
def answers (i : Instr) (s : State) (p : State → Bool) : Bool :=
  match exec i s with
  | .next t => p t
  | _ => false

/-- The reset state of the fixture. -/
def r : State := State.reset

/-- `r` with acceleration as given and one channel as given. -/
def withChan (accelEn : Bool) (ch : Fin 17) (ph : BitVec 2) (acc : BitVec 8) (tLast : Time) : State :=
  { r with accelEn := accelEn }.setChan ch { phase := ph, acc := acc, tLast := tLast }

/-- `r` with slot (0, 5) of this kind (the slot of 95_test_vectors.md V5). -/
def withSlot (channel : Fin 16) (cn : BitVec 7) (kind : ControlType) (lv : BitVec 7) : State :=
  r.setSlot 0 5 { Config.fixtureSlot cn with channel := channel, controlType := kind, localValue := lv }

/-- `r` with these messages queued from cell `head`. -/
def withQueue (head : Fin 32) (msgs : List Msg) : State :=
  { r with oq := msgs.foldl OutQueue.push { r.oq with head := head } }

/-- The timebase with these fields. -/
def mtcOf (hours minutes seconds frames : Byte) : Mtc :=
  { hours := hours, minutes := minutes, seconds := seconds, frames := frames, running := false, valid := false }

/-- 95_test_vectors.md V1 row 1, through QSAMPLE and through the row of its code. -/
theorem test_qsample_v1_1 :
    answers (.qsample 0 0b01 1200) (withChan false 0 0b11 3 1000) (fun t =>
      t.out.events = [.encoderStep 0 1] ∧ t.chan 0 = ⟨0b01, 0, 1200⟩ ∧ t.oq.contents = [.controlChange 1 0 1]) = true ∧
    answers (.qcode1101 0 1200) (withChan false 0 0b11 3 1000) (fun t =>
      t.out.events = [.encoderStep 0 1] ∧ t.chan 0 = ⟨0b01, 0, 1200⟩) = true := by decide

/-- 95_test_vectors.md V1 rows 3, 10, 13: reversal, the accumulator's sign, the wrap of `now`. -/
theorem test_qsample_v1_3_10_13 :
    answers (.qsample 0 0b00 40) (withChan false 0 0b10 3 30) (fun t =>
      t.out.events = [] ∧ t.chan 0 = ⟨0b00, 2, 40⟩) = true ∧
    answers (.qsample 0 0b10 500) (withChan true 0 0b11 3 500) (fun t =>
      t.out.events = [.encoderStep 0 4] ∧ t.chan 0 = ⟨0b10, 0, 500⟩) = true ∧
    answers (.qsample 0 0b01 1) (withChan true 0 0b11 0 0xFFFFFFFE) (fun t =>
      t.out.events = [] ∧ t.chan 0 = ⟨0b01, 1, 1⟩) = true := by decide

/-- 95_test_vectors.md V1 rows 6 to 9: the bands of the multiplier at their edges. -/
theorem test_qcode_bands :
    answers (.qcode1101 0 500) (withChan true 0 0b11 1 500) (fun t => t.out.events = [.encoderStep 0 4]) = true ∧
    answers (.qcode1101 0 501) (withChan true 0 0b11 1 500) (fun t => t.out.events = [.encoderStep 0 2]) = true ∧
    answers (.qcode1101 0 504) (withChan true 0 0b11 1 500) (fun t => t.out.events = [.encoderStep 0 2]) = true ∧
    answers (.qcode1101 0 505) (withChan true 0 0b11 1 500) (fun t =>
      t.out.events = [] ∧ t.chan 0 = ⟨0b01, 2, 505⟩) = true := by decide

/-- 30_encoding.md R92: each code from an accumulator of 0 a long time after, its direction and its phase. -/
theorem test_qcode_all :
    answers (.qcode0000 3 9) (withChan false 3 0b00 0 0) (fun t => t.chan 3 = ⟨0b00, 0, 0⟩) = true ∧
    answers (.qcode0001 3 9) (withChan false 3 0b00 0 0) (fun t => t.chan 3 = ⟨0b01, -1, 9⟩) = true ∧
    answers (.qcode0010 3 9) (withChan false 3 0b00 0 0) (fun t => t.chan 3 = ⟨0b10, 1, 9⟩) = true ∧
    answers (.qcode0011 3 9) (withChan false 3 0b00 0 0) (fun t => t.chan 3 = ⟨0b11, 0, 0⟩) = true ∧
    answers (.qcode0100 3 9) (withChan false 3 0b01 0 0) (fun t => t.chan 3 = ⟨0b00, 1, 9⟩) = true ∧
    answers (.qcode0101 3 9) (withChan false 3 0b01 0 0) (fun t => t.chan 3 = ⟨0b01, 0, 0⟩) = true ∧
    answers (.qcode0110 3 9) (withChan false 3 0b01 0 0) (fun t => t.chan 3 = ⟨0b10, 0, 0⟩) = true ∧
    answers (.qcode0111 3 9) (withChan false 3 0b01 0 0) (fun t => t.chan 3 = ⟨0b11, -1, 9⟩) = true ∧
    answers (.qcode1000 3 9) (withChan false 3 0b10 0 0) (fun t => t.chan 3 = ⟨0b00, -1, 9⟩) = true ∧
    answers (.qcode1001 3 9) (withChan false 3 0b10 0 0) (fun t => t.chan 3 = ⟨0b01, 0, 0⟩) = true ∧
    answers (.qcode1010 3 9) (withChan false 3 0b10 0 0) (fun t => t.chan 3 = ⟨0b10, 0, 0⟩) = true ∧
    answers (.qcode1011 3 9) (withChan false 3 0b10 0 0) (fun t => t.chan 3 = ⟨0b11, 1, 9⟩) = true ∧
    answers (.qcode1100 3 9) (withChan false 3 0b11 0 0) (fun t => t.chan 3 = ⟨0b00, 0, 0⟩) = true ∧
    answers (.qcode1110 3 9) (withChan false 3 0b11 0 0) (fun t => t.chan 3 = ⟨0b10, -1, 9⟩) = true ∧
    answers (.qcode1111 3 9) (withChan false 3 0b11 0 0) (fun t => t.chan 3 = ⟨0b11, 0, 0⟩) = true := by decide

/-- 95_test_vectors.md V1 sequences (b) and (c), and S2 once. -/
theorem test_turns :
    answers (.turncw 1 1000 0) (withChan true 1 0b11 0 0) (fun t =>
      t.out.events = [.encoderStep 1 4, .encoderStep 1 4, .encoderStep 1 4] ∧ t.chan 1 = ⟨0b11, 0, 1000⟩) = true ∧
    answers (.turncw 2 1000 3) (withChan true 2 0b11 0 996) (fun t =>
      t.out.events = [.encoderStep 2 2, .encoderStep 2 2] ∧ t.chan 2 = ⟨0b11, 0, 1009⟩) = true ∧
    answers (.turnccw 4 100 0) (withChan false 4 0b11 0 0) (fun t => t.out.events = [.encoderStep 4 (-1)]) = true := by
  decide

/-- 95_test_vectors.md V1 (e) and V2 row 2. -/
theorem test_setaccel_flags :
    answers (.setaccel false) r (fun t => t.accelEn = false) = true ∧
    answers (.flagset 1) r (fun t => t.ready = [false, true]) = true ∧
    answers (.flagclr 0) { r with ready := [true, true] } (fun t => t.ready = [false, true]) = true := by decide

/-- 95_test_vectors.md V2 rows 1 and 3: a clear flag ends the service; a set one starts it, and its sampling step does what
row 3 says. -/
theorem test_encservice :
    answers (.encservice 0 #v[1, 3, 3, 3, 3, 3, 3, 3, 3, 3, 3, 3, 3, 3, 3, 3] 100) (withChan false 0 0b11 3 0)
      (fun t => t = withChan false 0 0b11 3 0) = true ∧
    serviceStep ⟨0, #v[1, 0, 0, 0, 0, 0, 0, 0, 3, 3, 3, 3, 3, 3, 3, 3], 100, .sample⟩ (withChan false 0 0b11 3 0) =
      { withChan false 0 0b01 0 100 with
        slots := (r.setSlot 0 0 { Config.fixtureSlot 0 with localValue := 1 }).slots
        oq := r.oq.push (.controlChange 1 0 1)
        svc := some ⟨0, #v[1, 0, 0, 0, 0, 0, 0, 0, 3, 3, 3, 3, 3, 3, 3, 3], 100, .clear⟩
        out := { r.out with events := [.encoderStep 0 1] } } := by decide

/-- 95_test_vectors.md V3 rows 1, 2 and 5. -/
theorem test_swpoll :
    answers (.swpoll 0xFFFB 50) r (fun t => t.out.events = [.switchChanged 2] ∧ (t.slot 0 2).mute = true ∧
      t.oq.contents = [.controlChange 1 122 127] ∧ t.sw = ⟨0xFFFB, 50⟩) = true ∧
    answers (.swpoll 0xFEFA 150) { r with sw := ⟨0xFFFF, 100⟩ } (fun t =>
      t.out.events = [.switchChanged 0, .switchChanged 2, .switchChanged 8] ∧ (t.slot 0 0).solo = true ∧
      t.oq.contents = [.controlChange 1 120 127, .controlChange 1 122 127, .controlChange 1 110 127]) = true := by decide

/-- 95_test_vectors.md V3, BTNPOLL; and a SNAP16 of each port. -/
theorem test_btnpoll_snap16 :
    answers (.btnpoll 0xFFEE 100) r (fun t =>
      t.out.events = [.buttonChanged 0, .buttonChanged 4] ∧ t.btn = ⟨0xFFEE, 100⟩ ∧ t.sw = r.sw) = true ∧
    answers (.btnpoll 0xFFCE 150) { r with btn := ⟨0xFFEE, 100⟩ } (fun t =>
      t.out.events = [] ∧ t.btn = ⟨0xFFCE, 150⟩) = true ∧
    answers (.snap16 true 0xFFEE 100) r (fun t => t.out.events = [.buttonChanged 0, .buttonChanged 4]) = true ∧
    answers (.snap16 false 0xFFFB 60) r (fun t => t.out.events = [.switchChanged 2] ∧ t.btn = r.btn) = true := by decide

/-- 95_test_vectors.md V4, NAVENC rows 1 and 4. -/
theorem test_navenc :
    answers (.navenc 0b10 1) r (fun t => t = r) = true ∧
    answers (.navenc 0b11 4) { withChan true 16 0b10 1 2 with navPoll := 2 } (fun t =>
      t.out.events = [.navEncoderStep 2] ∧ t.chan 16 = ⟨0b11, 0, 4⟩ ∧ t.navPoll = 4 ∧ t.oq = r.oq) = true := by decide

/-- 95_test_vectors.md V4, NAVBTN rows 2, 4 and 7. -/
theorem test_navbtn :
    answers (.navbtn false 100) r (fun t => t.nb = ⟨false, true, 100⟩) = true ∧
    answers (.navbtn false 150) { r with nb := ⟨false, true, 100⟩ } (fun t =>
      t.nb = ⟨false, false, 100⟩ ∧ t.out.events = [.navButtonPressed]) = true ∧
    answers (.navbtn true 360) { r with nb := ⟨true, false, 310⟩ } (fun t =>
      t.nb = ⟨true, true, 310⟩ ∧ t.out.events = []) = true := by decide

/-- 95_test_vectors.md V5 rows 1, 3, 5, 6 and 8. -/
theorem test_applystep :
    answers (.applystep 5 4 0) (withSlot 0 7 .cc 100) (fun t => t.oq.contents = [.controlChange 1 7 104]) = true ∧
    answers (.applystep 5 1 0) (withSlot 1 60 .note 5) (fun t => t.oq.contents = [.noteOn 2 60 127]) = true ∧
    answers (.applystep 5 0 0) (withSlot 1 60 .note 4) (fun t => t.oq.contents = [.noteOff 2 60 0]) = true ∧
    answers (.applystep 5 1 0) (withSlot 0 0 .pitchBend 63) (fun t => t.oq.contents = [.pitchBend 1 64]) = true ∧
    answers (.applystep 5 4 0) (withSlot 2 0 .pitchBend 126) (fun t =>
      t.oq.contents = [.pitchBend 3 8191] ∧ (t.slot 0 5).localValue = 127) = true := by decide

/-- 95_test_vectors.md S4 rows 4 and 5: the clamp at both bounds with the largest steps. -/
theorem test_applystep_clamp :
    answers (.applystep 0 0x80 0) (r.setSlot 0 0 { Config.fixtureSlot 7 with minValue := 10, maxValue := 20, localValue := 15 })
      (fun t => (t.slot 0 0).localValue = 10) = true ∧
    answers (.applystep 0 0x7F 0) (r.setSlot 0 0 { Config.fixtureSlot 7 with minValue := 10, maxValue := 20, localValue := 15 })
      (fun t => (t.slot 0 0).localValue = 20) = true := by decide

/-- 41_bank_state.md R178, its example and its second half. -/
theorem test_applysw :
    answers (.applysw 2 0) (r.setSlot 0 2 { Config.fixtureSlot 2 with channel := 2 }) (fun t =>
      (t.slot 0 2).mute = true ∧ t.oq.contents = [.controlChange 3 122 127]) = true ∧
    answers (.applysw 15 3) (r.setSlot 3 7 { Config.fixtureSlot 7 with solo := true }) (fun t =>
      (t.slot 3 7).solo = false ∧ t.oq.contents = [.controlChange 1 117 0]) = true := by decide

/-- 95_test_vectors.md S6. -/
theorem test_dawsync :
    answers (.dawsync 3 1 (some 64) (some 0xF800) none) r (fun t => (t.slot 1 3).dawValue = 64 ∧
      (t.slot 1 3).trackColor = 0xF800 ∧ (t.slot 1 3).localValue = 0 ∧ t.out.notes = []) = true ∧
    answers (.dawsync 3 0 (some 64) (some 0xF800) none) r (fun t => (t.slot 0 3).dawValue = 64 ∧
      (t.slot 0 3).localValue = 64 ∧ t.out.notes = [.dirty 3] ∧ t.oq = r.oq) = true := by decide

/-- 95_test_vectors.md S9; 41_bank_state.md R188, R189. -/
theorem test_setbank_resets :
    answers (.setbank 2) r (fun t => t = { r with currentBank := 2 }) = true ∧
    answers (.resetslot 0 5) (withSlot 3 9 .note 9) (fun t => t = r) = true ∧
    answers .resetall { withSlot 3 9 .note 9 with currentBank := 3 } (fun t => t = { r with currentBank := 3 }) = true := by
  decide

/-- 41_bank_state.md R190 to R192. -/
theorem test_slotread_cfgwrite :
    answers (.slotread 3 15) r (fun t => t.out.rets = [.slot (some (Config.fixtureSlot 15))]) = true ∧
    answers (.cfgwrite 0 0 (.channel 10)) r (fun t => (t.slot 0 0).channel = 9 ∧ (t.slot 0 0).channelNo = 10) = true ∧
    exec (.cfgwrite 0 0 (.maxValue 4)) (withSlot 0 0 .cc 5) = .next (r.setSlot 0 5 { Config.fixtureSlot 0 with localValue := 5 }
      |>.setSlot 0 0 { Config.fixtureSlot 0 with maxValue := 4 }) := by
  refine ⟨by decide, by decide, rfl⟩

/-- 41_bank_state.md R196: the operation runs; the blob is what the abstract pair writes. -/
theorem test_serialize : exec .serialize r = .next (r.ret (.blob (Config.blobOf ⟨r.slots, 0, true⟩))) := rfl

/-- 41_bank_state.md R196: DESERIALIZE runs and writes the three restored fields. -/
theorem test_deserialize : exec (.deserialize [1]) r = .next { r with
    slots := legalTable 4 (Config.savedOf [1]).slots
    currentBank := (Config.savedOf [1]).currentBank
    accelEn := (Config.savedOf [1]).accelEn } := rfl

/-- 95_test_vectors.md P2 steps 1, 33 and 35. -/
theorem test_enq_drain :
    answers (.enq (.controlChange 1 7 1)) r (fun t => t.oq.contents = [.controlChange 1 7 1] ∧ t.out.rets = [.enq true]) = true ∧
    answers (.enq (.controlChange 1 7 33)) (withQueue 0 (List.replicate 32 (.controlChange 1 7 1))) (fun t =>
      t.errorCount = 1 ∧ t.oq.count = 32 ∧ t.out.rets = [.enq false]) = true ∧
    answers .drain (withQueue 31 [.controlChange 1 7 104, .realtime 0xFA]) (fun t =>
      t.out.wire = [0xB0, 0x07, 0x68] ∧ t.oq.head = 0 ∧ t.oq.contents = [.realtime 0xFA]) = true := by decide

/-- `r` under other values of 00_scope.md R9. -/
def under (v : Config.Valued) : State := { r with cfg := { r.cfg with valued := v } }

/-- 00_scope.md R9: the literals are configuration fields: another capacity, name lengths and frame prefix act so. -/
theorem test_fields_of_r9 :
    answers (.enq (.realtime 2)) { under { Config.r9 with qCap := 1 } with oq := r.oq.push (.realtime 1) } (fun t =>
      t.oq.contents = [.realtime 1] ∧ t.errorCount = 1 ∧ t.out.rets = [.enq false]) = true ∧
    answers (.dawsync 0 0 none none (some [1, 2, 3])) (under { Config.r9 with nameVis := 2 }) (fun t =>
      (t.slot 0 0).trackName = [1, 2]) = true ∧
    answers (.sxT03 0 0 [1, 2, 3]) (under { Config.r9 with nameRx := 1 }) (fun t => (t.slot 0 0).trackName = [1]) = true ∧
    answers (.sxT02 0 0 [1]) (under { Config.r9 with sysexId := [0xF0, 0x00, 0x21, 0x7C] }) (fun t => t.errorCount = 1) = true := by
  decide

/-- 42_outbound.md R214, R212: the bytes of a pitch bend and of a note off. -/
theorem test_drain_bytes :
    answers .drain (withQueue 0 [.pitchBend 1 64]) (fun t => t.out.wire = [0xE0, 0x40, 0x40]) = true ∧
    answers .drain (withQueue 0 [.noteOff 16 60 0]) (fun t => t.out.wire = [0x8F, 0x3C, 0x00]) = true := by decide

/-- 42_outbound.md R210 to R216, the rows. -/
theorem test_tx_rows :
    answers (.txControlChange 2 122 127) r (fun t => t.out.wire = [0xB2, 0x7A, 0x7F]) = true ∧
    answers (.txNoteOn 0 60 127) r (fun t => t.out.wire = [0x90, 0x3C, 0x7F]) = true ∧
    answers (.txNoteOff 15 60 0) r (fun t => t.out.wire = [0x8F, 0x3C, 0x00]) = true ∧
    answers (.txPitchBend 0 63 64) r (fun t => t.out.wire = [0xE0, 0x3F, 0x40]) = true ∧
    answers (.txRealtime 0xFC) r (fun t => t.out.wire = [0xFC]) = true ∧
    answers (.txSysEx [0xF0, 0x00, 0xF7]) r (fun t => t.out.wire = [0xF0, 0x00, 0xF7]) = true := by decide

/-- 43_inbound_sysex.md R232 to R235: packets without effect, a quarter frame, a realtime byte. -/
theorem test_packets :
    answers (.pktCvB 0 0xF1 0x04 0 9) r (fun t => t = r) = true ∧ answers (.pktIgnored 0x07 0xFA 0 0 9) r (fun t => t = r) = true ∧
    answers (.pktMtc 0x0F 0x04 0 9) r (fun t => t.mtc.frames = 4) = true ∧
    answers (.rxpkt 0x0F 0xFA 0 0 500) r (fun t => t.xp = ⟨true, false, false⟩) = true ∧
    answers (.pktRtFE 0 0 0 2500) r (fun t => t.lastSense = 2500) = true := by decide

/-- 95_test_vectors.md V12 rows 1, 3 and 5. -/
theorem test_rt :
    answers (.rt 0xFA 0) { r with xp := ⟨false, true, true⟩ } (fun t => t.xp = ⟨true, true, false⟩) = true ∧
    answers (.pktRtFC 0 0 0 0) { r with xp := ⟨true, true, false⟩ } (fun t => t.xp = ⟨false, true, false⟩) = true ∧
    answers (.sysreset 900) { r with xp := ⟨true, true, false⟩, mtc := mtcOf 1 2 3 4, errorCount := 7, lastSense := 55 }
      (fun t => t = { r with errorCount := 7, lastSense := 55 }) = true ∧
    answers (.rtbyte 0xFB 0) { r with xp := ⟨false, false, true⟩ } (fun t => t.xp = ⟨true, false, false⟩) = true := by decide

/-- 95_test_vectors.md V11: rows 13, 14, 17 and 18, and the large nibble of row 20. -/
theorem test_mtcqf :
    answers (.mtcqf 0x71) r (fun t => t.mtc = ⟨16, 0, 0, 0, false, true⟩) = true ∧
    answers (.qfP7 0 0xF) r (fun t => t.mtc = ⟨16, 0, 0, 0, true, true⟩) = true ∧
    answers (.mtcqf 0x71) { r with mtc := mtcOf 7 0 0 0 } (fun t => t.mtc.valid = true ∧ t.errorCount = 0) = true ∧
    answers (.mtcqf 0x71) { r with mtc := mtcOf 8 0 0 0 } (fun t => t.mtc.valid = false ∧ t.errorCount = 1) = true ∧
    answers (.qfP3 0 0xF) r (fun t => t.mtc.seconds = 240) = true := by decide

/-- 95_test_vectors.md S7 and V11 row 8. -/
theorem test_mtcfull :
    answers (.mtcfull 1 2 3 4 3) r (fun t => t.mtc = ⟨1, 2, 3, 4, true, true⟩ ∧ t.errorCount = 0) = true ∧
    answers (.mtcfull 0 0 0 30 3) r (fun t => t.mtc = ⟨0, 0, 0, 30, true, false⟩ ∧ t.errorCount = 1) = true ∧
    answers (.qframe 6 3) r (fun t => t.mtc.hours = 3) = true := by decide

/-- 43_inbound_sysex.md R240, R250, R252, R255, their examples. -/
theorem test_frames :
    answers (.rxsysex [0xF0, 0x00, 0x21, 0x7B, 0x02, 0x03, 0x00, 0x40, 0xF7]) r (fun t =>
      t.sysexCount = 1 ∧ (t.slot 0 3).localValue = 64 ∧ t.out.notes = [.dirty 3]) = true ∧
    answers (.sxT01 0 0 [0xF8, 0xFC, 0xF8]) r (fun t => (t.slot 0 0).trackColor = 0xFFFF) = true ∧
    answers (.sxT03 1 0 [0x4B, 0x49, 0x43, 0x4B, 0x31, 0x32]) r (fun t =>
      (t.slot 0 1).trackName = [0x4B, 0x49, 0x43, 0x4B]) = true ∧
    answers (.sxT06 5 0 [0x7F, 0x07, 0x03, 0x07]) r (fun t => (t.slot 0 5).dawValue = 127 ∧
      (t.slot 0 5).trackColor = 0 ∧ t.out.notes = [.dirty 5]) = true := by decide

/-- 43_inbound_sysex.md R241, R246, R253, R254. -/
theorem test_frames_counted :
    answers (.sxMalformed [0xF0]) r (fun t => t = { r with errorCount := 1 }) = true ∧
    answers (.sxT02 3 0 []) r (fun t => t = { r with sysexCount := 1 }) = true ∧
    answers (.sxT04 15 9 [0x7F]) r (fun t => t = ({ r with sysexCount := 1 }).notify (.vu 15 0x7F)) = true ∧
    answers (.sxT05 0 0 [0x03]) r (fun t => t.xp = ⟨true, true, false⟩) = true ∧
    answers (.sx 0x05 0 0 [0x04]) r (fun t => t.xp = ⟨false, false, true⟩) = true ∧
    answers (.xport8 0xFA) r (fun t => t.xp = ⟨false, true, false⟩ ∧ t.sysexCount = 1) = true := by decide

/-- 95_test_vectors.md S8 and V10. -/
theorem test_colours :
    answers (.pack565 0xF8 0xFC 0xF8) r (fun t => t.out.rets = [.packed 0xFFFF]) = true ∧
    answers (.pack565 0xFF 0 0) r (fun t => t.out.rets = [.packed 0xF800]) = true ∧
    answers (.unpack565 0x07E0) r (fun t => t.out.rets = [.rgb 0 0xFC 0]) = true ∧
    answers (.rgb565 31 0 1) r (fun t => t.out.rets = [.rgb 0xF8 0 0x08]) = true := by decide

/-- 95_test_vectors.md V12, STATREAD. -/
theorem test_statread :
    answers (.statread 3) { r with mtc := mtcOf 1 2 3 4 } (fun t => t.out.rets = [.status (some 0x01020304)]) = true ∧
    answers (.statread 9) { r with ready := [false, true] } (fun t => t.out.rets = [.status (some 2)]) = true ∧
    answers (.statread 10) r (fun t => t.out.rets = [.status none]) = true := by decide

/-! ## Witnesses -/

/-- `r` with these inputs. -/
def withInputs (inbox : List Xact) (irq : List Edge) (rst : Nat) : State :=
  { r with inp := { r.inp with inbox := inbox, irq := irq, rst := rst } }

/-- A service of half 1 at this stage. -/
def service (stage : Stage) : Service := { half := 1, ph := Vector.replicate 16 0b10, now := 7, stage := stage }

/-- Well-formed instructions at the edge of what their row admits. -/
theorem witness_DecodeEncodeAgree :
    Instr.wellFormed (.pktMtc 0x07 0x76 0 1) = true ∧ Instr.wellFormed (.pktMtc 0x0F 0x76 0 1) = true ∧
    Instr.wellFormed (.pktIgnored 0x0F 0xF7 0 0 1) = true ∧ Instr.wellFormed (.sxMalformed []) = true ∧
    Instr.wellFormed (.flagset 255) = true ∧ Instr.wellFormed (.dawsync 15 3 none none (some [1, 2, 3, 4, 5])) = true ∧
    Instr.wellFormed (.enq (.pitchBend 255 (-32768))) = true ∧ Instr.wellFormed (.cfgwrite 3 15 (.channel 0)) = true ∧
    Instr.wellFormed (.rtbyte 0xF8 0) = true := by decide

theorem witness_StepRunsTheDecodedInstruction :
    let s := withInputs [⟨.op, [0x31]⟩] [⟨1, 0⟩] 0
    s.inp.rst = 0 ∧ s.svc = none ∧ (∀ e es, s.inp.irq = e :: es → e.after ≠ 0) ∧
    s.inp.inbox = ⟨.op, [0x31]⟩ :: [] ∧ decode ⟨.op, [0x31]⟩ = .ok .drain ∧
    decodeTableWord 32 0x0FFA0000 = some (.pktRtFA 0 0 0 0) ∧
    (withInputs [] [⟨0, 1⟩] 0).inp.rst = 0 ∧ (withInputs [] [⟨0, 1⟩] 0).inp.irq = ⟨0, 1⟩ :: [] := by
  refine ⟨rfl, rfl, ?_, rfl, by decide, by decide, rfl, rfl⟩
  intro e es h
  cases h
  decide

/-- The fixture is legal: its T_MAIN of 3 exceeds T_NAV (70_reset_and_hazards.md R362). -/
theorem fixture_wf : Config.fixture.wf := ⟨rfl, by decide, by decide, by decide, by decide, by decide⟩

theorem witness_HardwareResetAndIdle :
    (withInputs [] [⟨0, 1⟩] 1).inp.rst ≠ 0 ∧ Config.fixture.wf ∧
    (withInputs [] [⟨0, 1⟩] 1).inp.irq = ⟨0, 1⟩ :: [] ∧
    (r.inp.rst = 0 ∧ r.inp.irq = [] ∧ r.svc = none ∧ r.inp.inbox = []) :=
  ⟨by decide, fixture_wf, rfl, by decide⟩

theorem witness_ResetMeetsTheInvariant : Config.fixture.wf := fixture_wf

theorem witness_EveryStepKeepsTheInvariant :
    BlockInv (withInputs [⟨.op, [0x11, 0x01]⟩] [] 0) ∧
    step (withInputs [⟨.op, [0x11, 0x01]⟩] [] 0) = .next { r with ready := [false, true] } :=
  ⟨{ acc := by decide, slots := by decide, queue := by decide, hours := by decide
     params := fixture_wf
     service := fun v h => by cases h },
   rfl⟩

theorem witness_QsampleWithoutTransition :
    codeOf (r.chan 16).phase 0b11 ∈ idleCodes ∧ codeOf (r.chan 0).phase 0b00 ∈ idleCodes := by decide

theorem witness_QsampleOfATransition : r.cfg.valued = Config.r9 ∧
    codeOf (r.chan 16).phase 0b10 ∈ positiveCodes ∧ codeOf (r.chan 15).phase 0b01 ∈ negativeCodes := by decide

/-- At both ends of the accumulator's range, the first with an event. -/
theorem witness_AccumulatorBound : (withChan false 0 0b00 3 0).cfg.valued = Config.r9 ∧
    (answers (.qsample 0 0b10 9) (withChan false 0 0b00 3 0) (fun _ => true) = true ∧
      ((withChan false 0 0b00 3 0).chan 0).acc.toInt = 3) ∧
    (answers (.qsample 0 0b10 9) (withChan false 0 0b00 (-3) 0) (fun _ => true) = true ∧
      ((withChan false 0 0b00 (-3) 0).chan 0).acc.toInt = -3) := by decide

theorem witness_QcodeRowsOfATransition : r.cfg.valued = Config.r9 := rfl

theorem witness_AccelerationOffOneEventPerCycle : (withChan false 3 0b00 0 0).cfg.valued = Config.r9 ∧
    ((withChan false 3 0b00 0 0).accelEn = false ∧ ((withChan false 3 0b00 0 0).chan 3).acc = 0 ∧
      oneWay positiveCodes ((withChan false 3 0b00 0 0).chan 3).phase
        [(0b10, 0), (0b11, 0), (0b01, 0), (0b00, 0), (0b10, 0)]) ∧
    oneWay negativeCodes ((withChan false 16 0b00 0 0).chan 16).phase [(0b01, 5), (0b11, 5), (0b10, 5), (0b00, 5)] := by
  simp only [oneWay]
  decide

theorem witness_FlagOperations :
    1 < r.ready.length ∧ ({ r with ready := [true, false] } : State).ready.getD 0 false = true := by decide

theorem witness_EncserviceRunsInThreeSteps :
    (1 < r.ready.length ∧ r.ready.getD 1 false = false) ∧
    (1 < r.ready.length ∧ ({ r with ready := [false, true] } : State).ready.getD 1 false = true) ∧
    (let s := { withInputs [] [⟨1, 1⟩] 0 with svc := some (service .sample) }
     s.inp.rst = 0 ∧ (∀ e es, s.inp.irq = e :: es → e.after ≠ 0) ∧ s.svc = some (service .sample) ∧
       (service .sample).stage = .sample) ∧
    (let s := { withInputs [] [⟨1, 1⟩] 0 with svc := some (service .clear) }
     s.inp.rst = 0 ∧ (∀ e es, s.inp.irq = e :: es → e.after ≠ 0) ∧ s.svc = some (service .clear) ∧
       (service .clear).stage = .clear) := by
  refine ⟨by decide, by decide, ⟨rfl, ?_, rfl, rfl⟩, ⟨rfl, ?_, rfl, rfl⟩⟩ <;>
  · intro e es h
    cases h
    decide

theorem witness_EdgeBeforeTheClearIsLost :
    let s := { withInputs [] [⟨1, 1⟩] 0 with svc := some (service .sample) }
    s.inp.rst = 0 ∧ s.svc = some (service .sample) ∧ (service .sample).stage = .sample ∧
    (service .sample).half < s.ready.length ∧ s.inp.irq = [{ after := 1, line := (service .sample).half }] :=
  ⟨rfl, rfl, rfl, by decide, rfl⟩

/-- 49 and 50 time units after the last accepted poll of each port. -/
theorem witness_SwpollGate : r.cfg.valued = Config.r9 ∧
    ((149 : Time) - (({ r with sw := ⟨0xFFFF, 100⟩ } : State).sw).tPoll).toNat < 50 ∧
    50 ≤ ((150 : Time) - (({ r with sw := ⟨0xFFFF, 100⟩ } : State).sw).tPoll).toNat := by decide

theorem witness_SwpollAccepted : r.cfg.valued = Config.r9 ∧
    ((49 : Time) - r.sw.tPoll).toNat < 50 ∧ 50 ≤ ((50 : Time) - r.sw.tPoll).toNat := by decide

theorem witness_BtnpollGateAndEvents : r.cfg.valued = Config.r9 ∧
    ((49 : Time) - r.btn.tPoll).toNat < 50 ∧ 50 ≤ ((50 : Time) - r.btn.tPoll).toNat := by decide

theorem witness_NavencIsAGatedSample : r.cfg.valued = Config.r9 ∧
    ((1 : Time) - r.navPoll).toNat < 2 ∧ 2 ≤ ((2 : Time) - r.navPoll).toNat := by decide

/-- A change; the window at 50; the window at 49, and a stable level. -/
theorem witness_NavbtnConfirmsAPress : r.cfg.valued = Config.r9 ∧
    false ≠ r.nb.raw ∧
    (let s := { r with nb := ⟨false, true, 100⟩ }
     false = s.nb.raw ∧ s.nb.raw ≠ s.nb.stable ∧ 50 ≤ ((150 : Time) - s.nb.tChange).toNat) ∧
    (let s := { r with nb := ⟨false, true, 100⟩ }
     false = s.nb.raw ∧ (s.nb.raw = s.nb.stable ∨ ((149 : Time) - s.nb.tChange).toNat < 50)) ∧
    (true = r.nb.raw ∧ (r.nb.raw = r.nb.stable ∨ ((10 : Time) - r.nb.tChange).toNat < 50)) := by decide

/-- Out of range at 16 and at 4; in range at 15 and 3, on a slot of each control type, with steps on both sides of 0. -/
theorem witness_ApplystepStepsAndSends : r.cfg.valued = Config.r9 ∧
    (16 ≤ (16 : Byte).toNat ∧ 4 ≤ (4 : Byte).toNat) ∧ (15 : Byte).toNat < 16 ∧ (3 : Byte).toNat < 4 ∧
    (r.slot 3 15).minValue.toNat ≤ (r.slot 3 15).maxValue.toNat ∧ (r.slot 3 15).controlType = .cc ∧
    ((withSlot 0 7 .note 5).slot 0 5).minValue.toNat ≤ ((withSlot 0 7 .note 5).slot 0 5).maxValue.toNat ∧
    ((withSlot 0 7 .note 5).slot 0 5).controlType = .note ∧ 0 < (1 : BitVec 8).toInt ∧ (0 : BitVec 8).toInt ≤ 0 ∧
    ((withSlot 0 7 .pitchBend 5).slot 0 5).controlType = .pitchBend := by decide

theorem witness_ApplystepStaysInBounds :
    (15 : Byte).toNat < 16 ∧ (3 : Byte).toNat < 4 ∧
    (r.slot 3 15).minValue.toNat ≤ (r.slot 3 15).maxValue.toNat := by decide

theorem witness_ApplyswToggles : r.cfg.valued = Config.r9 ∧ 16 ≤ (16 : Byte).toNat ∧ 4 ≤ (4 : Byte).toNat := by decide

theorem witness_ValueFormatRows : r.cfg.valued = Config.r9 := rfl

theorem witness_BankOperandsOutOfRange :
    ¬((4 : Byte).toNat < 4 ∧ (15 : Byte).toNat < 16) ∧ ¬((3 : Byte).toNat < 4 ∧ (16 : Byte).toNat < 16) ∧
    4 ≤ (4 : Byte).toNat := by decide

theorem witness_DawsyncStoresAndMirrors : r.cfg.valued = Config.r9 ∧
    (16 ≤ (16 : Byte).toNat ∧ 4 ≤ (4 : Byte).toNat) ∧
    ((r.slot 1 15).minValue.toNat ≤ (r.slot 1 15).maxValue.toNat ∧ (1 : Fin 4) ≠ r.currentBank) ∧
    ((r.slot 0 15).minValue.toNat ≤ (r.slot 0 15).maxValue.toNat ∧ (0 : Fin 4) = r.currentBank ∧
      (some 200 : Option Byte) = some 200 ∧ (none : Option Byte) = none) := by decide

theorem witness_SetbankSwitchesTheWindow : 4 ≤ (4 : Byte).toNat := by decide

theorem witness_ResetsRestoreTheDefaults :
    (4 ≤ (4 : Byte).toNat ∨ 16 ≤ (0 : Byte).toNat) ∧ (4 ≤ (0 : Byte).toNat ∨ 16 ≤ (16 : Byte).toNat) := by decide

theorem witness_SlotreadReturnsACopy :
    ((4 ≤ (4 : Byte).toNat ∨ 16 ≤ (0 : Byte).toNat) ∧ (4 ≤ (0 : Byte).toNat ∨ 16 ≤ (16 : Byte).toNat)) ∧
    (∃ t, exec (.slotread 0 0) r = .next t ∧ t.out.rets ≠ []) ∧
    (∃ t, step (withInputs [⟨.op, [0x26, 0, 0]⟩] [] 1) = .next t) :=
  ⟨by decide, ⟨_, rfl, by decide⟩, ⟨_, rfl⟩⟩

/-- A slot in the middle of its range: its bounds as local values, its local value as bounds, a name of four bytes. -/
theorem witness_CfgwriteWritesOneField :
    let x := (withSlot 0 7 .cc 5).slot 0 5
    (withSlot 0 7 .cc 5).cfg.valued = Config.r9 ∧ x.wf 4 ∧ (x.minValue.toNat ≤ (0 : BitVec 7).toNat ∧ (0 : BitVec 7).toNat ≤ x.maxValue.toNat) ∧
    (x.minValue.toNat ≤ (127 : BitVec 7).toNat ∧ (127 : BitVec 7).toNat ≤ x.maxValue.toNat) ∧
    (5 : BitVec 7).toNat ≤ x.localValue.toNat ∧ x.localValue.toNat ≤ (5 : BitVec 7).toNat ∧
    ([1, 2, 3, 4] : List Byte).length ≤ 4 := by decide

/-- Just outside each range. -/
theorem witness_CfgwriteRefusesBadEdits :
    let x := Config.fixtureSlot 7
    let y := { x with minValue := 10, maxValue := 20, localValue := 15 }
    ((4 ≤ (4 : Byte).toNat ∨ 16 ≤ (0 : Byte).toNat) ∧ (4 ≤ (3 : Byte).toNat ∨ 16 ≤ (16 : Byte).toNat)) ∧
    ((0 = 0 ∨ 16 < 0) ∧ (17 = 0 ∨ 16 < 17)) ∧ 127 < 128 ∧ (r.setSlot 0 0 y).slot 0 0 = y ∧
    ((127 < 9 ∨ 9 < y.minValue.toNat ∨ y.maxValue.toNat < 9) ∧ (127 < 21 ∨ 21 < y.minValue.toNat ∨ y.maxValue.toNat < 21)) ∧
    (127 < 16 ∨ y.localValue.toNat < 16) ∧ (127 < 14 ∨ 14 < y.localValue.toNat) ∧
    4 < ([1, 2, 3, 4, 5] : List Byte).length ∧ (r.setSlot 0 0 y).cfg.valued = Config.r9 := by decide

theorem witness_SerializeAndDeserializeRun :
    Slot.wf 4 (Config.fixtureSlot 7) ∧ Slot.wf 4 { Config.fixtureSlot 7 with trackName := [1, 2, 3, 4] } ∧
    (let s := { withSlot 3 9 .note 9 with currentBank := 3, accelEn := false }
     ∀ b k, (s.slot b k).wf r.cfg.valued.nameVis) := by decide

/-- 31 and 32 messages held, the first across the end of the ring; messages at the ends of the ranges of R31. -/
theorem witness_EnqAppendsOrFails :
    (withQueue 31 (List.replicate 31 (.realtime 0xFA))).cfg.valued = Config.r9 ∧
    (withQueue 0 (List.replicate 32 (.realtime 0xFA))).cfg.valued = Config.r9 ∧
    ((1 ≤ 1 ∧ 1 ≤ 16 ∧ 0 ≤ 127) ∧ (1 ≤ 16 ∧ 16 ≤ 16 ∧ 127 ≤ 127)) ∧
    ((-8192 : Int) ≤ -8192 ∧ (-8192 : Int) ≤ 8191 ∧ (-8192 : Int) ≤ 8191 ∧ (8191 : Int) ≤ 8191) ∧
    (List.replicate 16 (0 : Byte)).length ≤ r.cfg.sysexMax ∧
    msgWf r.cfg.sysexMax (.controlChange 16 127 127) = true ∧
    (withQueue 31 (List.replicate 31 (.realtime 0xFA))).oq.count.val < 32 ∧
    (withQueue 0 (List.replicate 32 (.realtime 0xFA))).oq.count.val = 32 ∧
    msgWf r.cfg.sysexMax (.controlChange 0 0 0) = false := by decide

theorem witness_EnqRefusesIllFormed :
    ((0 : Nat) = 0 ∨ 16 < 0 ∨ 127 < 0 ∨ 127 < 0) ∧ ((1 : Nat) = 0 ∨ 16 < 1 ∨ 127 < 128 ∨ 127 < 0) ∧
    ((17 : Nat) = 0 ∨ 16 < 17 ∨ (-8193 : Int) < -8192 ∨ 8191 < (-8193 : Int)) ∧
    ((1 : Nat) = 0 ∨ 16 < 1 ∨ (8192 : Int) < -8192 ∨ 8191 < (8192 : Int)) ∧
    r.cfg.sysexMax < (List.replicate 17 (0 : Byte)).length := by decide

theorem witness_CapacityLaw : r.cfg.valued = Config.r9 ∧
    (∀ m ∈ List.replicate 34 (Msg.controlChange 1 7 1), msgWf r.cfg.sysexMax m = true) ∧ r.oq.count = 0 := by
  refine ⟨rfl, ?_, rfl⟩
  intro m hm
  rw [List.eq_of_mem_replicate hm]
  decide

theorem witness_DrainSendsTheOldest :
    (withQueue 31 [.realtime 0xFA, .realtime 0xFC]).oq.contents = .realtime 0xFA :: [.realtime 0xFC] ∧
    r.oq.contents = [] := by decide

/-- An oldest message of each variant, at an end of its ranges. -/
theorem witness_DrainWritesTheBytesOfEachVariant :
    (withQueue 0 [.controlChange 16 127 0]).oq.contents = [.controlChange ((15 : Fin 16).val + 1) (127 : BitVec 7).toNat 0] ∧
    (withQueue 0 [.noteOn 1 0 127]).oq.contents = [.noteOn ((0 : Fin 16).val + 1) 0 (127 : BitVec 7).toNat] ∧
    (withQueue 0 [.noteOff 1 0 127]).oq.contents = [.noteOff ((0 : Fin 16).val + 1) 0 (127 : BitVec 7).toNat] ∧
    (withQueue 0 [.pitchBend 16 8191]).oq.contents =
      [.pitchBend ((15 : Fin 16).val + 1) ((((127 : BitVec 7) ++ (127 : BitVec 7)).toNat : Int) - 8192)] ∧
    (withQueue 0 [.sysEx []]).oq.contents = [.sysEx []] ∧
    (withQueue 0 [.realtime 0xFC]).oq.contents = [.realtime 0xFC] := by decide

theorem witness_FifoLaw :
    (∀ i ∈ [Instr.enq (.realtime 1), .drain, .drain, .enq (.realtime 2)], i = .drain ∨ ∃ m, i = .enq m) ∧
    (∃ t, execAll [.enq (.realtime 1), .drain, .drain, .enq (.realtime 2)] r = .next t) ∧
    (∃ t, exec .drain (withQueue 31 [.realtime 0xFA, .realtime 0xFC]) = .next t) ∧
    (∃ t, exec (.txRealtime 0xFA) r = .next t) ∧
    (withInputs [⟨.op, [0x31]⟩] [] 0).inp.rst = 0 ∧ ∃ t, step (withInputs [⟨.op, [0x31]⟩] [] 0) = .next t := by
  refine ⟨?_, ⟨_, rfl⟩, ⟨_, rfl⟩, ⟨_, rfl⟩, rfl, _, rfl⟩
  intro i hi
  simp only [List.mem_cons, List.not_mem_nil, or_false] at hi
  rcases hi with rfl | rfl | rfl | rfl
  · exact .inr ⟨_, rfl⟩
  · exact .inl rfl
  · exact .inl rfl
  · exact .inr ⟨_, rfl⟩

theorem witness_PacketsWithoutEffect :
    ((0 : BitVec 4).toNat < 8 ∧ (0xFF : Byte) ≠ 0xF1) ∧ ((7 : BitVec 4).toNat < 8 ∧ (0xF0 : Byte) ≠ 0xF1) ∧
    ((0xF7 : Byte).toNat < 0xF8 ∧ (0xF7 : Byte) ≠ 0xF1) := by decide

theorem witness_RealtimePacketsAct : 0xF8 ≤ (0xF8 : Byte).toNat ∧ 0xF8 ≤ (0xFF : Byte).toNat := by decide

/-- The last valid time and each field one beyond it; the nibble 1 gives hours 16 and more. -/
theorem witness_QuarterFramePieceSeven : r.cfg.valued = Config.r9 ∧
    let ok (m : Mtc) : Bool := decide (m.frames.toNat < 30 ∧ m.seconds.toNat < 60 ∧ m.minutes.toNat < 60 ∧
      ((0#3 ++ (1#4).extractLsb' 0 1 ++ m.hours.extractLsb' 0 4 : Byte)).toNat < 24)
    ok { r with mtc := mtcOf 7 59 59 29 }.mtc = true ∧ ok { r with mtc := mtcOf 8 59 59 29 }.mtc = false ∧
    ok { r with mtc := mtcOf 7 60 59 29 }.mtc = false ∧ ok { r with mtc := mtcOf 7 59 60 29 }.mtc = false ∧
    ok { r with mtc := mtcOf 7 59 59 30 }.mtc = false := by decide

theorem witness_MtcfullAssemblesTheTime : r.cfg.valued = Config.r9 := rfl

theorem witness_QuarterFrameRows :
    ((7 : BitVec 4).toNat < 8 ∨ (7 : BitVec 4) = 0xF) ∧ ((0xF : BitVec 4).toNat < 8 ∨ (0xF : BitVec 4) = 0xF) := by decide

/-- Seven bytes; another vendor; another end; types 00 and 07. -/
theorem witness_MalformedFrames : r.cfg.valued = Config.r9 ∧
    ([0xF0, 0x00, 0x21, 0x7B, 0x03, 0x00, 0xF7] : List Byte).length < 8 ∧
    ([0xF0, 0x00, 0x21, 0x7C, 0x03, 0x00, 0x00, 0xF7] : List Byte).take 4 ≠ [0xF0, 0x00, 0x21, 0x7B] ∧
    ([0xF0, 0x00, 0x21, 0x7B, 0x03, 0x00, 0x00, 0xF6] : List Byte).getLast? ≠ some 0xF7 ∧
    ([0xF0, 0x00, 0x21, 0x7B, 0x00, 0x00, 0x00, 0xF7] : List Byte)[4]? = some 0x00 ∧
    (∃ t, ([0xF0, 0x00, 0x21, 0x7B, 0x07, 0x00, 0x00, 0xF7] : List Byte)[4]? = some t ∧ 6 < t.toNat) :=
  ⟨rfl, by decide, by decide, by decide, by decide, 7, rfl, by decide⟩

theorem witness_FramesThatSyncASlot : r.cfg.valued = Config.r9 := rfl

theorem witness_VuAndTransportFrames : r.cfg.valued = Config.r9 ∧
    (15 : Byte) = BitVec.ofNat 8 (15 : Fin 16).val ∧ 16 ≤ (16 : Byte).toNat := by decide

/-- One byte short of the minimum of each type. -/
theorem witness_UndersizedFrames : r.cfg.valued = Config.r9 ∧
    (((0x01 : Byte), 11) ∈ [((0x01 : Byte), 11), (0x02, 9), (0x04, 9), (0x05, 9), (0x06, 12)] ∧
      ([1, 2] : List Byte).length + 8 < 11) ∧
    ([] : List Byte).length + 8 < 9 ∧ ([1, 2, 3] : List Byte).length + 8 < 12 := by decide

theorem witness_StatreadReturnsTheRegister : 9 < (10 : Byte).toNat := by decide

/-- A frame of another type, which raises nothing; and a step that takes a frame of type 05, which raises recording. -/
theorem witness_OnlyFramesRaiseRecordingAndPaused :
    (let i := Instr.rxsysex [0xF0, 0x00, 0x21, 0x7B, 0x02, 0x03, 0x00, 0x40, 0xF7]
     (∃ t, exec i { r with xp := ⟨false, true, false⟩ } = .next t ∧ t.xp.recording = true) ∧ i.carriesTransport = false) ∧
    (let s := withInputs [⟨.sysex, [0xF0, 0x00, 0x21, 0x7B, 0x05, 0x00, 0x00, 0x02, 0xF7]⟩] [] 0
     ∃ t, step s = .next t ∧ s.xp.recording = false ∧ t.xp.recording = true) :=
  ⟨⟨⟨_, rfl, rfl⟩, rfl⟩, ⟨_, rfl, rfl, rfl⟩⟩

theorem witness_OnlySamplesWriteChannels :
    (∃ t, exec (.swpoll 0 50) r = .next t) ∧ Instr.samples (.swpoll 0 50) = false := ⟨⟨_, rfl⟩, rfl⟩

theorem witness_OperandsOutsideTheirType :
    r.ready.length ≤ 2 ∧ (0xF7 : Byte).toNat < 0xF8 ∧
    (let s := withInputs [⟨.op, [0x18]⟩] [] 0
     s.inp.rst = 0 ∧ s.inp.irq = [] ∧ s.svc = none ∧ s.inp.inbox = ⟨.op, [0x18]⟩ :: [] ∧
       decode ⟨.op, [0x18]⟩ = .error .unknownOperation) := by decide

end Sys2Proof.Tests
end

/-! PROOFS. The family of 10_state.md: what one step runs, the invariant at reset and through every step, and the channels
that only a quadrature sample writes. -/

namespace Sys2Proof.Machine

/-! ## What a step runs -/

section StepRuns

variable {s : State}

theorem step_of_reset (hrst : s.inp.rst ≠ 0) : step s = .next (resetCycle s) := if_pos hrst

/-- An edge whose time has come is FLAGSET of its line (10_state.md R51). -/
theorem step_of_edge {e : Edge} {es : List Edge} (hrst : s.inp.rst = 0) (hirq : s.inp.irq = e :: es)
    (hdue : e.after = 0) : step s = exec (.flagset e.line) { s with inp := { s.inp with irq := es } } := by
  simp only [step, hrst, hirq, hdue, ne_eq, not_true_eq_false, if_false, if_true]
  rfl

/-- With no edge due agent SEQ takes its step, and the edges to come are one step nearer. -/
theorem step_of_no_edge (hrst : s.inp.rst = 0) (hlater : ∀ e es, s.inp.irq = e :: es → e.after ≠ 0) :
    step s = sequencerStep { s with inp := { s.inp with irq := tickEdges s.inp.irq } } := by
  cases hirq : s.inp.irq with
  | nil =>
    have hsame : { s with inp := { s.inp with irq := tickEdges [] } } = s := by
      rw [tickEdges, ← hirq]
    rw [hsame]
    simp only [step, hrst, hirq, ne_eq, not_true_eq_false, if_false]
  | cons e es =>
    simp only [step, hrst, hirq, hlater e es hirq, ne_eq, not_true_eq_false, if_false]

theorem sequencerStep_of_service {v : Service} (hsvc : s.svc = some v) :
    sequencerStep s = .next (serviceStep v s) := by
  simp only [sequencerStep, hsvc]

theorem sequencerStep_of_idle (hsvc : s.svc = none) (hinbox : s.inp.inbox = []) : sequencerStep s = .next s := by
  simp only [sequencerStep, hsvc, hinbox]

theorem sequencerStep_of_ok {x : Xact} {rest : List Xact} {i : Instr} (hsvc : s.svc = none)
    (hinbox : s.inp.inbox = x :: rest) (hdec : decode x = .ok i) :
    sequencerStep s = exec i { s with inp := { s.inp with inbox := rest } } := by
  simp only [sequencerStep, hsvc, hinbox, hdec]

theorem sequencerStep_of_error {x : Xact} {rest : List Xact} {why : Reject} (hsvc : s.svc = none)
    (hinbox : s.inp.inbox = x :: rest) (hdec : decode x = .error why) :
    sequencerStep s = .refused (.undecodable why) := by
  simp only [sequencerStep, hsvc, hinbox, hdec]

end StepRuns

/-! ## A word placed by `withFetchWord` -/

theorem laterEdges_not_due {l : List Edge} {e : Edge} {es : List Edge} (h : laterEdges l = e :: es) : e.after ≠ 0 := by
  cases l with
  | nil => cases h
  | cons e' es' => cases h; exact Nat.succ_ne_zero _

@[simp] theorem tickEdges_laterEdges (l : List Edge) : tickEdges (laterEdges l) = l := by cases l <;> rfl

theorem decode_tableXact {nbits w : Nat} {i : Instr} (h : decodeTableWord nbits w = some i) :
    decode (tableXact nbits w) = .ok i := by
  cases hd : decode (tableXact nbits w) <;> simp_all [decodeTableWord]

/-- A word placed is the transaction agent SEQ takes next; the edges are then where they were. -/
theorem step_withFetchWord {s : State} {nbits w : Nat} {i : Instr} (h : decodeTableWord nbits w = some i) :
    step (s.withFetchWord nbits w) = exec i { s with svc := none, inp := { s.inp with rst := 0 } } := by
  rw [step_of_no_edge rfl fun _ _ => laterEdges_not_due, sequencerStep_of_ok rfl rfl (decode_tableXact h)]
  simp only [State.withFetchWord, tickEdges_laterEdges]

/-- Settles O3: the step's three ways to an instruction. -/
theorem stepRunsTheDecodedInstruction : Obligations.StepRunsTheDecodedInstruction := by
  refine ⟨fun s x rest i hrst hsvc hlater hinbox hdec => ?_, fun s nbits w i h => step_withFetchWord h,
    fun e es s hrst hirq hdue => step_of_edge hrst hirq hdue⟩
  rw [step_of_no_edge hrst hlater]
  exact sequencerStep_of_ok hsvc hinbox hdec

/-! ## Facts kept by every step -/

/-- The state an operation answers, if it answers one, has the property. -/
def NextSatisfies (P : State → Prop) : Result → Prop
  | .next t => P t
  | .fault _ => True
  | .refused _ => True

@[simp] theorem nextSatisfies_next {P : State → Prop} {t : State} : NextSatisfies P (.next t) ↔ P t := Iff.rfl

@[simp] theorem nextSatisfies_refused {P : State → Prop} {r : Refusal} : NextSatisfies P (.refused r) := trivial

theorem nextSatisfies_iff {P : State → Prop} {r : Result} : NextSatisfies P r ↔ ∀ t, r = .next t → P t := by
  cases r <;> simp [NextSatisfies]

/-- What no change of the inputs disturbs, and hardware reset, the later steps of a service and every instruction keep,
every step keeps. -/
theorem step_keeps {P : State → Prop} (inputs : ∀ s inp, P s → P { s with inp := inp })
    (reset : ∀ s, P s → P (hardReset s)) (service : ∀ s v, s.svc = some v → P s → P (serviceStep v s))
    (instr : ∀ i s, P s → NextSatisfies P (exec i s)) (s : State) (h : P s) : NextSatisfies P (step s) := by
  have sequencer : ∀ s, P s → NextSatisfies P (sequencerStep s) := by
    intro s h
    cases hsvc : s.svc with
    | some v => rw [sequencerStep_of_service hsvc]; exact service s v hsvc h
    | none =>
      cases hinbox : s.inp.inbox with
      | nil => rw [sequencerStep_of_idle hsvc hinbox]; exact h
      | cons x rest =>
        cases hdec : decode x with
        | ok i => rw [sequencerStep_of_ok hsvc hinbox hdec]; exact instr i _ (inputs s _ h)
        | error why => rw [sequencerStep_of_error hsvc hinbox hdec]; trivial
  by_cases hrst : s.inp.rst = 0
  · by_cases hlater : ∀ e es, s.inp.irq = e :: es → e.after ≠ 0
    · rw [step_of_no_edge hrst hlater]
      exact sequencer _ (inputs s _ h)
    · push Not at hlater
      obtain ⟨e, es, hirq, hdue⟩ := hlater
      rw [step_of_edge hrst hirq hdue]
      exact instr _ _ (inputs s _ h)
  · rw [step_of_reset hrst]
    exact inputs _ _ (reset s h)

/-! ## The invariant: slots and messages -/

theorem wf_set_clampToSlot {n : Nat} {x : Slot} (h : x.wf n) (v : Int) :
    ({ x with localValue := clampToSlot x v } : Slot).wf n := by
  obtain ⟨hlo, hhi, hname⟩ := h
  obtain ⟨hlo', hhi'⟩ := clampToSlot_bounds x v (hlo.trans hhi)
  exact ⟨hlo', hhi', hname⟩

theorem wf_syncSlot {n : Nat} {x : Slot} (h : x.wf n) (value : Option Byte) (color : Option (BitVec 16))
    (name : Option (List Byte)) : (syncSlot n x value color name).wf n := by
  obtain ⟨hlo, hhi, hname⟩ := h
  refine ⟨hlo, hhi, ?_⟩
  cases name with
  | none => exact hname
  | some l => exact List.length_take_le n l

theorem wf_mirrorSlot {n : Nat} {x : Slot} (h : x.wf n) (value : Option Byte) : (mirrorSlot x value).wf n := by
  cases value with
  | none => exact h
  | some v => exact wf_set_clampToSlot h _

/-- The repair of a restored slot orders its bounds and clamps, whatever the slot (41_bank_state.md R196; log 11). -/
theorem wf_legalSlot (n : Nat) (x : Slot) : (legalSlot n x).wf n := by
  have hord : x.minValue.toNat ≤ (legalSlot n x).maxValue.toNat := by
    simp only [legalSlot]
    split <;> omega
  obtain ⟨hlo, hhi⟩ := clampToSlot_bounds (legalSlot n x) x.localValue.toNat hord
  exact ⟨hlo, hhi, List.length_take_le n _⟩

theorem legalTable_at (n : Nat) (x : SlotTable) (b : Fin Config.nBank) (t : Fin Config.nTrack) :
    (legalTable n x).at b t = legalSlot n (x.at b t) := by
  simp [legalTable, SlotTable.at]

theorem channelInRange_channelNo (x : Slot) : channelInRange x.channelNo = true :=
  Bool.and_eq_true_iff.mpr ⟨decide_eq_true (Nat.succ_pos _), decide_eq_true x.channel.isLt⟩

theorem onOff_le (v : Bool) : onOff v ≤ 127 := by cases v <;> decide

/-- The pitch-bend map ends at 129 × 127 − 8192 = 8191 (41_bank_state.md R175). -/
theorem bendOf_bounds (v : BitVec 7) : -8192 ≤ bendOf v ∧ bendOf v ≤ 8191 := by
  have := v.isLt
  unfold bendOf
  omega

theorem msgWf_controlChange {k v : Nat} (sysexMax : Nat) (x : Slot) (hk : k ≤ 127) (hv : v ≤ 127) :
    msgWf sysexMax (.controlChange x.channelNo k v) = true := by
  simp [msgWf, channelInRange_channelNo, hk, hv]

theorem msgWf_stepMessage (sysexMax : Nat) (vel : BitVec 7) (x : Slot) (delta : Int) :
    msgWf sysexMax (stepMessage vel x delta) = true := by
  have data : ∀ v : BitVec 7, v.toNat ≤ 127 := fun v => Nat.le_of_lt_succ v.isLt
  unfold stepMessage
  cases x.controlType with
  | cc => exact msgWf_controlChange _ x (data _) (data _)
  | note =>
    dsimp only
    split <;> simp [msgWf, channelInRange_channelNo, data]
  | pitchBend => simp [msgWf, channelInRange_channelNo, bendOf_bounds]

/-! ## The invariant: reset -/

theorem blockInv_initial {cfg : Config.Params} (halves : Nat) (out : Outputs) (inp : Inputs) (hcfg : cfg.wf) :
    BlockInv (State.initial cfg halves out inp) where
  acc ch := by simp [State.chan, State.initial]
  slots b t := by
    obtain ⟨-, -, hdefaults, -⟩ := hcfg
    exact (hdefaults b t).1
  queue m hm := absurd hm List.not_mem_nil
  hours := (by decide : (0 : Byte).toNat < 32)
  params := hcfg
  service v hv := nomatch hv

theorem fixture_params_wf : Config.fixture.wf := ⟨rfl, by decide, by decide, by decide, by decide, by decide⟩

/-- Settles O5. -/
theorem resetMeetsTheInvariant : Obligations.ResetMeetsTheInvariant :=
  ⟨blockInv_initial _ _ _ fixture_params_wf, fun _ halves out inp hcfg => blockInv_initial halves out inp hcfg⟩

/-! ## The invariant: the writes of the state -/

section Invariant

variable {s : State}

theorem blockInv_inputs (inp : Inputs) (h : BlockInv s) : BlockInv { s with inp := inp } := { h with }
theorem blockInv_emit (e : Event) (h : BlockInv s) : BlockInv (s.emit e) := { h with }
theorem blockInv_tx (bytes : List Byte) (h : BlockInv s) : BlockInv (s.tx bytes) := { h with }
theorem blockInv_notify (n : Note) (h : BlockInv s) : BlockInv (s.notify n) := { h with }
theorem blockInv_ret (v : Ret) (h : BlockInv s) : BlockInv (s.ret v) := { h with }

theorem blockInv_raiseError (e : ErrorKind) (h : BlockInv s) : BlockInv (raiseError e s) := by
  rw [raiseError_eq]
  exact { h with }

theorem blockInv_setChan (ch : Fin Config.nCh) {c : QChan} (hc : -3 ≤ c.acc.toInt ∧ c.acc.toInt ≤ 3)
    (h : BlockInv s) : BlockInv (s.setChan ch c) :=
  { h with
    acc := fun k => by
      rw [State.chan_setChan]
      split
      · exact hc
      · exact h.acc k }

theorem blockInv_setSlot (b : Fin Config.nBank) (t : Fin Config.nTrack) {x : Slot} (hx : x.wf s.cfg.valued.nameVis)
    (h : BlockInv s) : BlockInv (s.setSlot b t x) :=
  { h with
    slots := fun b' t' => by
      rw [State.slot_setSlot]
      split
      · exact hx
      · exact h.slots b' t' }

theorem blockInv_setFlag (k : Nat) (h : BlockInv s) : BlockInv (setFlag k s) :=
  { h with service := fun v hv => (h.service v hv).trans_eq List.length_set.symm }

theorem blockInv_clearFlag (k : Nat) (h : BlockInv s) : BlockInv (clearFlag k s) :=
  { h with service := fun v hv => (h.service v hv).trans_eq List.length_set.symm }

theorem blockInv_setService {v : Service} (hv : v.half < s.ready.length) (h : BlockInv s) :
    BlockInv { s with svc := some v } :=
  { h with service := fun v' hv' => by cases hv'; exact hv }

theorem blockInv_endService (h : BlockInv s) : BlockInv { s with svc := none } :=
  { h with service := fun _ hnone => nomatch hnone }

theorem blockInv_enqueue {m : Msg} (hm : msgWf s.cfg.sysexMax m = true) (h : BlockInv s) : BlockInv (enqueue m s) := by
  obtain ⟨hroom, he⟩ | ⟨-, he⟩ := enqueue_cases m s
  · rw [he]
    refine { h with queue := fun m' hm' => ?_ }
    rw [OutQueue.contents_push _ _ (by omega), List.mem_append, List.mem_singleton] at hm'
    obtain hheld | rfl := hm'
    · exact h.queue m' hheld
    · exact hm
  · rw [he]
    exact { h with }

theorem blockInv_drain (h : BlockInv s) : BlockInv (drain s) := by
  obtain ⟨-, he⟩ | ⟨hne, he⟩ := drain_cases s
  · rwa [he]
  · rw [he]
    refine { h with queue := fun m hm => h.queue m ?_ }
    rw [OutQueue.contents_pop _ hne]
    exact List.mem_cons_of_mem _ hm

/-! ## The invariant: bank operations and samples -/

theorem blockInv_applyStep (index : Nat) (delta : Int) (bank : Nat) (h : BlockInv s) :
    BlockInv (applyStep index delta bank s) := by
  unfold applyStep
  split
  · exact blockInv_enqueue (msgWf_stepMessage _ _ _ _)
      (blockInv_setSlot _ _ (wf_set_clampToSlot (h.slots _ _) _) h)
  · exact h

theorem blockInv_applySw (sw bank : Nat) (h : BlockInv s) : BlockInv (applySw sw bank s) := by
  unfold applySw
  split
  next hin =>
    obtain ⟨hsw, -⟩ := hin
    simp only [Config.nSw] at hsw
    -- the controller numbers are 120 + 7 and 110 + 7 at most, data bytes both
    split <;>
    · exact blockInv_enqueue (msgWf_controlChange _ _ (by dsimp only; omega) (onOff_le _))
        (blockInv_setSlot _ _ (h.slots _ _) h)
  next => exact h

theorem blockInv_dawSync (track bank : Nat) (value : Option Byte) (color : Option (BitVec 16))
    (name : Option (List Byte)) (h : BlockInv s) : BlockInv (dawSync track bank value color name s) := by
  unfold dawSync dawSyncAt
  split
  · dsimp only
    split
    · exact blockInv_notify _ (blockInv_setSlot _ _ (wf_mirrorSlot (wf_syncSlot (h.slots _ _) _ _ _) _) h)
    · exact blockInv_setSlot _ _ (wf_syncSlot (h.slots _ _) _ _ _) h
  · exact h

/-- The accumulator bound of 40_input_decoder.md R137, through one sample. -/
theorem quadNext_acc_bounds (h : BlockInv s) (code : BitVec 4) (now : Time) (ch : Fin Config.nCh) :
    -3 ≤ (quadNext s.cfg.valued s.accelEn code now (s.chan ch)).1.acc.toInt ∧
      (quadNext s.cfg.valued s.accelEn code now (s.chan ch)).1.acc.toInt ≤ 3 := by
  obtain ⟨hr9, -⟩ := h.params
  rw [hr9]
  obtain hkept | hbounds := quadNext_acc s.accelEn code now (s.chan ch)
  · rw [hkept]; exact h.acc ch
  · exact hbounds

theorem blockInv_couple (ch : Fin Config.nCh) (delta : Int) (h : BlockInv s) : BlockInv (couple ch delta s) := by
  unfold couple
  split
  · exact blockInv_applyStep _ _ _ h
  · exact h

theorem blockInv_sampleCode (ch : Fin Config.nCh) (code : BitVec 4) (now : Time) (h : BlockInv s) :
    BlockInv (sampleCode ch code now s) := by
  have hacc := quadNext_acc_bounds h code now ch
  unfold sampleCode
  split
  next c hq =>
    rw [hq] at hacc
    exact blockInv_setChan ch hacc h
  next c delta hq =>
    rw [hq] at hacc
    exact blockInv_couple ch delta (blockInv_emit _ (blockInv_setChan ch hacc h))

theorem blockInv_sample (ch : Fin Config.nCh) (ph : BitVec 2) (now : Time) (h : BlockInv s) :
    BlockInv (sample ch ph now s) := blockInv_sampleCode ch _ now h

theorem blockInv_turn (ch : Fin Config.nCh) (p0 p1 p2 p3 : BitVec 2) (t0 dt : Time) (h : BlockInv s) :
    BlockInv (turn ch p0 p1 p2 p3 t0 dt s) :=
  blockInv_sample _ _ _ (blockInv_sample _ _ _ (blockInv_sample _ _ _ (blockInv_sample _ _ _ h)))

/-! ## The invariant: timebase, packets, frames -/

/-- Pieces 6 and 7 write the two nibbles of the hours; piece 7 writes one bit of the higher (44_mtc_transport.md R277). -/
theorem mtcNext_hours_lt (p : Config.Valued) (piece : BitVec 3) (n : BitVec 4) {m : Mtc} (h : m.hours.toNat < 32) :
    (mtcNext p piece n m).hours.toNat < 32 := by
  have high : (setHighNibble m.hours (n &&& 0b0001)).toNat < 32 := by
    generalize m.hours = f
    rw [setHighNibble_hours]
    generalize n.extractLsb' 0 1 = b, f.extractLsb' 0 4 = l
    revert b l
    decide
  unfold mtcNext
  split
  case h_7 => exact setLowNibble_bounds_hours _ _ h
  case h_8 => exact high
  all_goals exact h

theorem blockInv_mtcPiece (piece : BitVec 3) (n : BitVec 4) (h : BlockInv s) : BlockInv (mtcPiece piece n s) := by
  rw [mtcPiece_eq]
  exact { h with hours := mtcNext_hours_lt _ _ _ h.hours }

theorem blockInv_realtime (status : Byte) (now : Time) (h : BlockInv s) : BlockInv (realtime status now s) := by
  unfold realtime
  split
  case h_5 => exact { h with hours := (by decide : mtcClear.hours.toNat < 32) }
  all_goals exact { h with }

theorem blockInv_receivePacket (header status data1 : Byte) (now : Time) (h : BlockInv s) :
    BlockInv (receivePacket header status data1 now s) := by
  unfold receivePacket
  cases packetClass header status with
  | voice => exact h
  | mtc => exact blockInv_mtcPiece _ _ h
  | realtime => exact blockInv_realtime _ _ h
  | ignored => exact h

theorem blockInv_quarterPacket (p : BitVec 3) (n : BitVec 4) (h : BlockInv s) : BlockInv (quarterPacket p n s) :=
  blockInv_receivePacket _ _ _ _ h

theorem blockInv_frameAction (t : Nat) (track bank : Byte) (payload : List Byte) (h : BlockInv s) :
    BlockInv (frameAction t track bank payload s) := by
  unfold frameAction
  split
  case h_4 =>
    split
    · exact blockInv_notify _ h
    · exact h
  case h_5 => exact { h with }
  all_goals exact blockInv_dawSync _ _ _ _ _ h

theorem blockInv_receiveFrame (bytes : List Byte) (h : BlockInv s) : BlockInv (receiveFrame bytes s) := by
  unfold receiveFrame
  split
  · exact blockInv_raiseError _ h
  · split
    · exact blockInv_raiseError _ h
    · have hcounted : BlockInv { s with sysexCount := s.sysexCount + 1 } := { h with }
      dsimp only
      split
      · exact blockInv_raiseError _ hcounted
      · exact blockInv_frameAction _ _ _ _ hcounted

/-! ## The invariant: services and polls -/

theorem blockInv_serviceChannels (v : Service) (is : List (Fin Config.nMain)) (h : BlockInv s) :
    BlockInv (serviceChannels v is s) := by
  induction is generalizing s with
  | nil => exact h
  | cons i rest ih =>
    apply ih
    split
    · exact blockInv_sample _ _ _ h
    · exact h

theorem blockInv_serviceStep {v : Service} (hv : s.svc = some v) (h : BlockInv s) : BlockInv (serviceStep v s) := by
  have hhalf : v.half < s.ready.length := h.service v hv
  unfold serviceStep
  cases v.stage with
  | sample =>
    have hready : (serviceChannels v mainIndices s).ready = s.ready := by rw [serviceChannels_frame]
    exact blockInv_setService (hready.symm ▸ hhalf) (blockInv_serviceChannels v mainIndices h)
  | clear => exact blockInv_clearFlag _ (blockInv_endService h)

theorem blockInv_switchPresses (old new : BitVec 16) (is : List (Fin Config.nSw)) (h : BlockInv s) :
    BlockInv (switchPresses old new is s) := by
  induction is generalizing s with
  | nil => exact h
  | cons i rest ih =>
    apply ih
    split
    · exact blockInv_applySw _ _ (blockInv_emit _ h)
    · exact h

theorem blockInv_switchPoll (snap : BitVec 16) (now : Time) (h : BlockInv s) : BlockInv (switchPoll snap now s) := by
  unfold switchPoll
  split
  · exact h
  · have hpolled : BlockInv { s with sw := { s.sw with tPoll := now } } := { h with }
    exact { blockInv_switchPresses s.sw.snap snap switchIndices hpolled with }

theorem blockInv_buttonPoll (snap : BitVec 16) (now : Time) (h : BlockInv s) : BlockInv (buttonPoll snap now s) := by
  unfold buttonPoll
  split
  · exact h
  · dsimp only
    rw [buttonPresses_eq]
    exact { h with }

/-! ## The invariant: the instructions that decide something themselves -/

theorem execSetbank_blockInv (bank : Byte) (h : BlockInv s) : NextSatisfies BlockInv (execSetbank bank s) := by
  unfold execSetbank
  split
  · exact { h with }
  · exact h

/-- RESETSLOT writes a compiled-in slot, which is legal by the parameters (10_state.md R43). -/
theorem execResetslot_blockInv (bank track : Byte) (h : BlockInv s) :
    NextSatisfies BlockInv (execResetslot bank track s) := by
  obtain ⟨-, -, hdefaults, -⟩ := h.params
  unfold execResetslot
  split
  · exact blockInv_setSlot _ _ (hdefaults _ _).1 h
  · exact h

theorem execResetall_blockInv (h : BlockInv s) : NextSatisfies BlockInv (execResetall s) := by
  obtain ⟨-, -, hdefaults, -⟩ := h.params
  exact { h with slots := fun b t => (hdefaults b t).1 }

theorem execSlotread_blockInv (bank track : Byte) (h : BlockInv s) :
    NextSatisfies BlockInv (execSlotread bank track s) := by
  unfold execSlotread
  split <;> exact blockInv_ret _ h

/-- CFGWRITE refuses the edits that break the slot's invariant (41_bank_state.md R192). -/
theorem execCfgwrite_blockInv (bank track : Byte) (edit : CfgEdit) (h : BlockInv s) :
    NextSatisfies BlockInv (execCfgwrite bank track edit s) := by
  unfold execCfgwrite
  split
  · split
    · trivial
    · split
      next hok => exact blockInv_setSlot _ _ ((slotOk_iff _ _).mp hok) h
      next => trivial
  · exact h

theorem execDeserialize_blockInv (blob : List Byte) (h : BlockInv s) :
    NextSatisfies BlockInv (execDeserialize blob s) :=
  { h with
    slots := fun b t => by
      simp only [State.slot, legalTable_at]
      exact wf_legalSlot _ _ }

/-- ENQ refuses an ill-formed message (42_outbound.md R203). -/
theorem execEnq_blockInv (msg : Msg) (h : BlockInv s) : NextSatisfies BlockInv (execEnq msg s) := by
  unfold execEnq
  split
  next hwf => exact blockInv_ret _ (blockInv_enqueue hwf h)
  next => trivial

theorem execFlagset_blockInv (k : Nat) (h : BlockInv s) : NextSatisfies BlockInv (execFlagset k s) := by
  unfold execFlagset
  split
  · exact blockInv_setFlag k h
  · trivial

theorem execFlagclr_blockInv (k : Nat) (h : BlockInv s) : NextSatisfies BlockInv (execFlagclr k s) := by
  unfold execFlagclr
  split
  · exact blockInv_clearFlag k h
  · trivial

/-- ENCSERVICE starts a service only of a flag that exists (40_input_decoder.md R146). -/
theorem execEncservice_blockInv (k : Nat) (ph : Vector (BitVec 2) Config.nMain) (now : Time) (h : BlockInv s) :
    NextSatisfies BlockInv (execEncservice k ph now s) := by
  unfold execEncservice
  split
  next hk =>
    split
    · exact blockInv_setService hk h
    · exact h
  next => trivial

theorem execSnap16_blockInv (button : Bool) (snap : BitVec 16) (now : Time) (h : BlockInv s) :
    NextSatisfies BlockInv (execSnap16 button snap now s) := by
  cases button with
  | true => exact blockInv_buttonPoll _ _ h
  | false => exact blockInv_switchPoll _ _ h

theorem execNavenc_blockInv (ph : BitVec 2) (now : Time) (h : BlockInv s) :
    NextSatisfies BlockInv (execNavenc ph now s) := by
  unfold execNavenc
  split
  · exact h
  · exact blockInv_sample _ _ _ { h with }

theorem execNavbtn_blockInv (lvl : Bool) (now : Time) (h : BlockInv s) :
    NextSatisfies BlockInv (execNavbtn lvl now s) := by
  unfold execNavbtn
  split
  · exact { h with }
  · split
    · dsimp only
      split
      · exact blockInv_emit _ { h with }
      · exact { h with }
    · exact h

theorem execRt_blockInv (status : Byte) (now : Time) (h : BlockInv s) :
    NextSatisfies BlockInv (execRt status now s) := by
  unfold execRt
  split
  · exact blockInv_realtime _ _ h
  · trivial

theorem execMtcfull_blockInv (hh mm ss ff : Byte) (r : BitVec 2) (h : BlockInv s) :
    NextSatisfies BlockInv (execMtcfull hh mm ss ff r s) := by
  unfold execMtcfull
  iterate 8 apply blockInv_quarterPacket
  exact h

end Invariant

/-- Every instruction keeps the invariant: each row by the lemma of the operation it stands for. -/
theorem exec_blockInv (i : Instr) (s : State) (h : BlockInv s) : NextSatisfies BlockInv (exec i s) :=
  match i with
  | .qcode0000 .. | .qcode0001 .. | .qcode0010 .. | .qcode0011 .. | .qcode0100 .. | .qcode0101 .. | .qcode0110 ..
  | .qcode0111 .. | .qcode1000 .. | .qcode1001 .. | .qcode1010 .. | .qcode1011 .. | .qcode1100 .. | .qcode1101 ..
  | .qcode1110 .. | .qcode1111 .. => blockInv_sampleCode _ _ _ h
  | .pktCv8 .. | .pktCv9 .. | .pktCvA .. | .pktCvB .. | .pktCvC .. | .pktCvD .. | .pktCvE .. | .pktMtc ..
  | .pktRtF8 .. | .pktRtF9 .. | .pktRtFA .. | .pktRtFB .. | .pktRtFC .. | .pktRtFD .. | .pktRtFE .. | .pktRtFF ..
  | .pktIgnored .. | .rxpkt .. | .sysreset .. | .rtbyte .. => blockInv_receivePacket _ _ _ _ h
  | .qfP0 .. | .qfP1 .. | .qfP2 .. | .qfP3 .. | .qfP4 .. | .qfP5 .. | .qfP6 .. | .qfP7 .. | .mtcqf .. =>
    blockInv_mtcPiece _ _ h
  | .sxT01 .. | .sxT02 .. | .sxT03 .. | .sxT04 .. | .sxT05 .. | .sxT06 .. | .sxMalformed .. | .xport8 ..
  | .rxsysex .. | .sx .. => blockInv_receiveFrame _ h
  | .txControlChange .. | .txNoteOn .. | .txNoteOff .. | .txPitchBend .. | .txRealtime .. | .txSysEx .. =>
    blockInv_tx _ h
  | .rgb565 .. | .pack565 .. | .unpack565 .. | .statread .. | .serialize => blockInv_ret _ h
  | .turncw .. | .turnccw .. => blockInv_turn _ _ _ _ _ _ _ h
  | .qsample .. => blockInv_sample _ _ _ h
  | .setaccel _ => { h with }
  | .swpoll .. => blockInv_switchPoll _ _ h
  | .btnpoll .. => blockInv_buttonPoll _ _ h
  | .applystep .. => blockInv_applyStep _ _ _ h
  | .applysw .. => blockInv_applySw _ _ h
  | .dawsync .. => blockInv_dawSync _ _ _ _ _ h
  | .drain => blockInv_drain h
  | .qframe .. => blockInv_quarterPacket _ _ h
  | .setbank _ => execSetbank_blockInv _ h
  | .resetslot .. => execResetslot_blockInv _ _ h
  | .resetall => execResetall_blockInv h
  | .slotread .. => execSlotread_blockInv _ _ h
  | .cfgwrite .. => execCfgwrite_blockInv _ _ _ h
  | .deserialize _ => execDeserialize_blockInv _ h
  | .enq _ => execEnq_blockInv _ h
  | .flagset _ => execFlagset_blockInv _ h
  | .flagclr _ => execFlagclr_blockInv _ h
  | .encservice .. => execEncservice_blockInv _ _ _ h
  | .snap16 .. => execSnap16_blockInv _ _ _ h
  | .navenc .. => execNavenc_blockInv _ _ h
  | .navbtn .. => execNavbtn_blockInv _ _ h
  | .rt .. => execRt_blockInv _ _ h
  | .mtcfull .. => execMtcfull_blockInv _ _ _ _ _ h

/-- Settles O6: the invariant is kept by reset, service steps and every instruction, and reads no input. -/
theorem everyStepKeepsTheInvariant : Obligations.EveryStepKeepsTheInvariant := fun s _ h =>
  nextSatisfies_iff.mp (step_keeps (fun _ inp => blockInv_inputs inp) (fun _ h => blockInv_initial _ _ _ h.params)
    (fun _ _ => blockInv_serviceStep) exec_blockInv s h) _

/-! ## What leaves the channels alone -/

section Channels

variable (s : State)

@[simp] theorem setFlag_q (k : Nat) : (setFlag k s).q = s.q := rfl

@[simp] theorem clearFlag_q (k : Nat) : (clearFlag k s).q = s.q := rfl

@[simp] theorem enqueue_q (m : Msg) : (enqueue m s).q = s.q := by rw [enqueue_frame]

@[simp] theorem drain_q : (drain s).q = s.q := by
  obtain ⟨-, he⟩ | ⟨-, he⟩ := drain_cases s <;> rw [he]
  rfl

@[simp] theorem applyStep_q (index : Nat) (delta : Int) (bank : Nat) : (applyStep index delta bank s).q = s.q := by
  rw [applyStep_frame]

@[simp] theorem applySw_q (sw bank : Nat) : (applySw sw bank s).q = s.q := by rw [applySw_frame]

@[simp] theorem dawSync_q (track bank : Nat) (value : Option Byte) (color : Option (BitVec 16))
    (name : Option (List Byte)) : (dawSync track bank value color name s).q = s.q := by rw [dawSync_frame]

@[simp] theorem mtcPiece_q (piece : BitVec 3) (n : BitVec 4) : (mtcPiece piece n s).q = s.q := by rw [mtcPiece_eq]

@[simp] theorem realtime_q (status : Byte) (now : Time) : (realtime status now s).q = s.q := by rw [realtime_frame]

@[simp] theorem receivePacket_q (header status data1 : Byte) (now : Time) :
    (receivePacket header status data1 now s).q = s.q := by rw [receivePacket_frame]

@[simp] theorem quarterPacket_q (p : BitVec 3) (n : BitVec 4) : (quarterPacket p n s).q = s.q :=
  receivePacket_q s _ _ _ _

@[simp] theorem receiveFrame_q (bytes : List Byte) : (receiveFrame bytes s).q = s.q := by rw [receiveFrame_frame]

@[simp] theorem switchPoll_q (snap : BitVec 16) (now : Time) : (switchPoll snap now s).q = s.q := by
  unfold switchPoll
  split
  · rfl
  · dsimp only
    rw [switchPresses_frame]

@[simp] theorem buttonPoll_q (snap : BitVec 16) (now : Time) : (buttonPoll snap now s).q = s.q := by
  unfold buttonPoll
  split
  · rfl
  · dsimp only
    rw [buttonPresses_eq]

theorem execSetbank_q (bank : Byte) : NextSatisfies (·.q = s.q) (execSetbank bank s) := by
  unfold execSetbank
  split <;> simp

theorem execResetslot_q (bank track : Byte) : NextSatisfies (·.q = s.q) (execResetslot bank track s) := by
  unfold execResetslot
  split <;> simp

theorem execSlotread_q (bank track : Byte) : NextSatisfies (·.q = s.q) (execSlotread bank track s) := by
  unfold execSlotread
  split <;> simp

theorem execCfgwrite_q (bank track : Byte) (edit : CfgEdit) :
    NextSatisfies (·.q = s.q) (execCfgwrite bank track edit s) := by
  unfold execCfgwrite
  split
  · split
    · simp
    · split <;> simp
  · simp

theorem execEnq_q (msg : Msg) : NextSatisfies (·.q = s.q) (execEnq msg s) := by
  unfold execEnq
  split <;> simp

theorem execFlagset_q (k : Nat) : NextSatisfies (·.q = s.q) (execFlagset k s) := by
  unfold execFlagset
  split <;> simp

theorem execFlagclr_q (k : Nat) : NextSatisfies (·.q = s.q) (execFlagclr k s) := by
  unfold execFlagclr
  split <;> simp

/-- The first step of ENCSERVICE only tests the flag: the samples are its second (40_input_decoder.md R146). -/
theorem execEncservice_q (k : Nat) (ph : Vector (BitVec 2) Config.nMain) (now : Time) :
    NextSatisfies (·.q = s.q) (execEncservice k ph now s) := by
  unfold execEncservice
  split
  · split <;> simp
  · simp

theorem execSnap16_q (button : Bool) (snap : BitVec 16) (now : Time) :
    NextSatisfies (·.q = s.q) (execSnap16 button snap now s) := by
  unfold execSnap16
  split <;> simp

theorem execNavbtn_q (lvl : Bool) (now : Time) : NextSatisfies (·.q = s.q) (execNavbtn lvl now s) := by
  unfold execNavbtn
  split
  · simp
  · split
    · dsimp only
      split <;> simp
    · simp

theorem execRt_q (status : Byte) (now : Time) : NextSatisfies (·.q = s.q) (execRt status now s) := by
  unfold execRt
  split <;> simp

theorem execMtcfull_q (hh mm ss ff : Byte) (r : BitVec 2) :
    NextSatisfies (·.q = s.q) (execMtcfull hh mm ss ff r s) := by simp [execMtcfull]

end Channels

/-- Every row but the samplers leaves the channels as they are: each by the frame of the operation it stands for. -/
theorem exec_q (i : Instr) (s : State) (hi : i.samples = false) : NextSatisfies (·.q = s.q) (exec i s) :=
  match i with
  | .qcode0000 .. | .qcode0001 .. | .qcode0010 .. | .qcode0011 .. | .qcode0100 .. | .qcode0101 .. | .qcode0110 ..
  | .qcode0111 .. | .qcode1000 .. | .qcode1001 .. | .qcode1010 .. | .qcode1011 .. | .qcode1100 .. | .qcode1101 ..
  | .qcode1110 .. | .qcode1111 .. | .qsample .. | .navenc .. | .turncw .. | .turnccw .. => nomatch hi
  | .pktCv8 .. | .pktCv9 .. | .pktCvA .. | .pktCvB .. | .pktCvC .. | .pktCvD .. | .pktCvE .. | .pktMtc ..
  | .pktRtF8 .. | .pktRtF9 .. | .pktRtFA .. | .pktRtFB .. | .pktRtFC .. | .pktRtFD .. | .pktRtFE .. | .pktRtFF ..
  | .pktIgnored .. | .rxpkt .. | .sysreset .. | .rtbyte .. => receivePacket_q s _ _ _ _
  | .qfP0 .. | .qfP1 .. | .qfP2 .. | .qfP3 .. | .qfP4 .. | .qfP5 .. | .qfP6 .. | .qfP7 .. | .mtcqf .. =>
    mtcPiece_q s _ _
  | .sxT01 .. | .sxT02 .. | .sxT03 .. | .sxT04 .. | .sxT05 .. | .sxT06 .. | .sxMalformed .. | .xport8 ..
  | .rxsysex .. | .sx .. => receiveFrame_q s _
  | .txControlChange .. | .txNoteOn .. | .txNoteOff .. | .txPitchBend .. | .txRealtime .. | .txSysEx .. =>
    State.tx_q s _
  | .rgb565 .. | .pack565 .. | .unpack565 .. | .statread .. | .serialize => State.ret_q s _
  | .setaccel _ | .resetall | .deserialize _ => (rfl : s.q = s.q)
  | .swpoll .. => switchPoll_q s _ _
  | .btnpoll .. => buttonPoll_q s _ _
  | .applystep .. => applyStep_q s _ _ _
  | .applysw .. => applySw_q s _ _
  | .dawsync .. => dawSync_q s _ _ _ _ _
  | .drain => drain_q s
  | .qframe .. => quarterPacket_q s _ _
  | .setbank _ => execSetbank_q s _
  | .resetslot .. => execResetslot_q s _ _
  | .slotread .. => execSlotread_q s _ _
  | .cfgwrite .. => execCfgwrite_q s _ _ _
  | .enq _ => execEnq_q s _
  | .flagset _ => execFlagset_q s _
  | .flagclr _ => execFlagclr_q s _
  | .encservice .. => execEncservice_q s _ _ _
  | .snap16 .. => execSnap16_q s _ _ _
  | .navbtn .. => execNavbtn_q s _ _
  | .rt .. => execRt_q s _ _
  | .mtcfull .. => execMtcfull_q s _ _ _ _ _

/-- Settles O59, row by row. -/
theorem onlySamplesWriteChannels : Obligations.OnlySamplesWriteChannels := fun i s _ hnext hi =>
  nextSatisfies_iff.mp (exec_q i s hi) _ hnext

end Sys2Proof.Machine

/-! PROOFS. The family of 20_memory.md: operands out of the bank table, and the order in which messages pass the
queue. -/

namespace Sys2Proof.Machine

/-! ## Operands out of the bank table -/

section OutOfTable

variable {bank track : Byte} (s : State)

theorem execResetslot_out_of_range (h : ¬(bank.toNat < 4 ∧ track.toNat < 16)) :
    execResetslot bank track s = .next s := dif_neg h

theorem execSlotread_out_of_range (h : ¬(bank.toNat < 4 ∧ track.toNat < 16)) :
    execSlotread bank track s = .next (s.ret (.slot none)) := dif_neg h

theorem execCfgwrite_out_of_range (edit : CfgEdit) (h : ¬(bank.toNat < 4 ∧ track.toNat < 16)) :
    execCfgwrite bank track edit s = .next s := dif_neg h

theorem execSetbank_out_of_range (h : 4 ≤ bank.toNat) : execSetbank bank s = .next s := dif_neg (Nat.not_lt.mpr h)

end OutOfTable

/-- Settles O28, operation by operation. -/
theorem bankOperandsOutOfRange : Obligations.BankOperandsOutOfRange := by
  intro bank track s h
  have hswap : ¬(track.toNat < 16 ∧ bank.toNat < 4) := fun hin => h hin.symm
  exact ⟨fun delta => congrArg _ (applyStep_out_of_range _ _ _ s hswap),
    congrArg _ (applySw_out_of_range _ _ s hswap),
    fun value color name => congrArg _ (dawSync_out_of_range _ _ value color name s hswap),
    execResetslot_out_of_range s h,
    execSlotread_out_of_range s h,
    fun edit => execCfgwrite_out_of_range s edit h,
    execSetbank_out_of_range s⟩

/-! ## What passes the queue -/

/-- From `s` to `t` the queue accepted the messages `accepted`, the messages `gone` left it, and the wire grew by their
bytes and by `own`, in first-in-first-out order; no input was taken (20_memory.md R63). -/
structure Moves (accepted gone : List Msg) (own : List Byte) (s t : State) : Prop where
  queue : s.oq.contents ++ accepted = gone ++ t.oq.contents
  wire : t.out.wire = s.out.wire ++ gone.flatMap serialise ++ own
  inp : t.inp = s.inp

/-- One move after another: what is accepted and what leaves adds up. -/
theorem Moves.trans {a a' g g' : List Msg} {own : List Byte} {s t u : State} (h : Moves a g [] s t)
    (h' : Moves a' g' own t u) : Moves (a ++ a') (g ++ g') own s u where
  queue := by rw [← List.append_assoc, h.queue, List.append_assoc, h'.queue, List.append_assoc]
  wire := by simp [h'.wire, h.wire]
  inp := h'.inp.trans h.inp

theorem moves_of_same {s t : State} (hq : t.oq = s.oq) (hw : t.out.wire = s.out.wire) (hi : t.inp = s.inp) :
    Moves [] [] [] s t where
  queue := by simp [hq]
  wire := by simp [hw]
  inp := hi

/-- A move may begin at any state with the same queue, wire and inputs. -/
theorem Moves.from_same {a g : List Msg} {own : List Byte} {s t u : State} (h : Moves a g own t u)
    (hq : t.oq = s.oq) (hw : t.out.wire = s.out.wire) (hi : t.inp = s.inp) : Moves a g own s u :=
  (moves_of_same hq hw hi).trans h

/-- A move may end at any state with the same queue, wire and inputs. -/
theorem Moves.to_same {a g : List Msg} {own : List Byte} {s t u : State} (h : Moves a g own s t)
    (hq : u.oq = t.oq) (hw : u.out.wire = t.out.wire) (hi : u.inp = t.inp) : Moves a g own s u where
  queue := hq ▸ h.queue
  wire := hw.trans h.wire
  inp := hi.trans h.inp

@[simp] theorem enqueue_out (m : Msg) (s : State) : (enqueue m s).out = s.out := by rw [enqueue_frame]

@[simp] theorem drain_rets (s : State) : (drain s).out.rets = s.out.rets := by
  obtain ⟨-, he⟩ | ⟨-, he⟩ := drain_cases s <;> rw [he]
  rfl

/-- A message handed to the queue is accepted when there is room, else it is not (42_outbound.md R201, R202). -/
theorem moves_enqueue (m : Msg) (s : State) :
    Moves (if !s.oq.full s.cfg.valued.qCap then [m] else []) [] [] s (enqueue m s) := by
  obtain ⟨hroom, he⟩ | ⟨hfull, he⟩ := enqueue_cases m s
  · have hnot : s.oq.full s.cfg.valued.qCap = false := by
      rw [Bool.eq_false_iff, ne_eq, OutQueue.full_iff]
      omega
    rw [he, hnot]
    exact ⟨(OutQueue.contents_push _ m (by omega)).symm, by simp, rfl⟩
  · rw [he, (OutQueue.full_iff _ _).mpr hfull]
    exact moves_of_same rfl rfl rfl

/-- DRAIN takes the oldest message, or nothing from an empty queue (42_outbound.md R205 to R207). -/
theorem moves_drain (s : State) : Moves [] (s.oq.contents.take 1) [] s (drain s) := by
  obtain ⟨hempty, he⟩ | ⟨hne, he⟩ := drain_cases s
  · have hnil : s.oq.contents = [] := List.eq_nil_of_length_eq_zero (s.oq.length_contents.trans hempty)
    rw [he, hnil]
    exact moves_of_same rfl rfl rfl
  · have hpop := OutQueue.contents_pop _ hne
    rw [he]
    exact ⟨by simp [hpop], by simp [hpop], rfl⟩

/-! ## What takes nothing from the queue -/

/-- From `s` to `t` nothing left the queue, and nothing but `own` went on the wire. -/
def Accepts (own : List Byte) (s t : State) : Prop := ∃ accepted, Moves accepted [] own s t

section Accepting

variable {s t u : State}

theorem Accepts.trans (h : Accepts [] s t) (h' : Accepts [] t u) : Accepts [] s u := by
  obtain ⟨_, hmoves⟩ := h
  obtain ⟨_, hmoves'⟩ := h'
  exact ⟨_, hmoves.trans hmoves'⟩

theorem accepts_of_same (hq : t.oq = s.oq) (hw : t.out.wire = s.out.wire) (hi : t.inp = s.inp) : Accepts [] s t :=
  ⟨[], moves_of_same hq hw hi⟩

theorem Accepts.from_same {own : List Byte} (h : Accepts own t u) (hq : t.oq = s.oq)
    (hw : t.out.wire = s.out.wire) (hi : t.inp = s.inp) : Accepts own s u := by
  obtain ⟨_, hmoves⟩ := h
  exact ⟨_, hmoves.from_same hq hw hi⟩

theorem Accepts.to_same {own : List Byte} (h : Accepts own s t) (hq : u.oq = t.oq)
    (hw : u.out.wire = t.out.wire) (hi : u.inp = t.inp) : Accepts own s u := by
  obtain ⟨_, hmoves⟩ := h
  exact ⟨_, hmoves.to_same hq hw hi⟩

theorem Accepts.setSvc {own : List Byte} (h : Accepts own s t) (v : Option Service) :
    Accepts own s { t with svc := v } :=
  h.to_same rfl rfl rfl

theorem Accepts.setSw {own : List Byte} (h : Accepts own s t) (d : Debounce) : Accepts own s { t with sw := d } :=
  h.to_same rfl rfl rfl

theorem accepts_refl : Accepts [] s s := accepts_of_same rfl rfl rfl

variable (s)

theorem accepts_tx {bytes own : List Byte} (h : bytes = own) : Accepts own s (s.tx bytes) :=
  ⟨[], ⟨by simp, by simp [h], rfl⟩⟩

theorem accepts_enqueue (m : Msg) : Accepts [] s (enqueue m s) := ⟨_, moves_enqueue m s⟩

theorem accepts_applyStep (index : Nat) (delta : Int) (bank : Nat) : Accepts [] s (applyStep index delta bank s) := by
  unfold applyStep
  split
  · exact (accepts_enqueue (s.setSlot _ _ _) _).from_same rfl rfl rfl
  · exact accepts_refl

theorem accepts_applySw (sw bank : Nat) : Accepts [] s (applySw sw bank s) := by
  unfold applySw
  split
  · split
    · exact (accepts_enqueue (s.setSlot _ _ _) _).from_same rfl rfl rfl
    · exact (accepts_enqueue (s.setSlot _ _ _) _).from_same rfl rfl rfl
  · exact accepts_refl

theorem accepts_dawSync (track bank : Nat) (value : Option Byte) (color : Option (BitVec 16))
    (name : Option (List Byte)) : Accepts [] s (dawSync track bank value color name s) := by
  rw [dawSync_frame]
  exact accepts_of_same rfl rfl rfl

theorem accepts_couple (ch : Fin Config.nCh) (delta : Int) : Accepts [] s (couple ch delta s) := by
  unfold couple
  split
  · exact accepts_applyStep s _ _ _
  · exact accepts_refl

theorem accepts_sampleCode (ch : Fin Config.nCh) (code : BitVec 4) (now : Time) :
    Accepts [] s (sampleCode ch code now s) := by
  unfold sampleCode
  split
  · exact accepts_of_same rfl rfl rfl
  · exact (accepts_couple ((s.setChan _ _).emit _) _ _).from_same rfl rfl rfl

theorem accepts_sample (ch : Fin Config.nCh) (ph : BitVec 2) (now : Time) : Accepts [] s (sample ch ph now s) :=
  accepts_sampleCode s _ _ _

theorem accepts_turn (ch : Fin Config.nCh) (p0 p1 p2 p3 : BitVec 2) (t0 dt : Time) :
    Accepts [] s (turn ch p0 p1 p2 p3 t0 dt s) :=
  (((accepts_sample s _ _ _).trans (accepts_sample _ _ _ _)).trans (accepts_sample _ _ _ _)).trans
    (accepts_sample _ _ _ _)

theorem accepts_mtcPiece (piece : BitVec 3) (n : BitVec 4) : Accepts [] s (mtcPiece piece n s) := by
  rw [mtcPiece_eq]
  exact accepts_of_same rfl rfl rfl

theorem accepts_receivePacket (header status data1 : Byte) (now : Time) :
    Accepts [] s (receivePacket header status data1 now s) := by
  rw [receivePacket_frame]
  exact accepts_of_same rfl rfl rfl

theorem accepts_quarterPacket (p : BitVec 3) (n : BitVec 4) : Accepts [] s (quarterPacket p n s) :=
  accepts_receivePacket s _ _ _ _

theorem accepts_receiveFrame (bytes : List Byte) : Accepts [] s (receiveFrame bytes s) := by
  rw [receiveFrame_frame]
  exact accepts_of_same rfl rfl rfl

/-- The samples of a service may hand messages to the queue, one after another (40_input_decoder.md R146). -/
theorem accepts_serviceChannels (v : Service) (is : List (Fin Config.nMain)) :
    Accepts [] s (serviceChannels v is s) := by
  induction is generalizing s with
  | nil => exact accepts_refl
  | cons i rest ih =>
    refine Accepts.trans ?_ (ih _)
    split
    · exact accepts_sample s _ _ _
    · exact accepts_refl

theorem accepts_serviceStep (v : Service) : Accepts [] s (serviceStep v s) := by
  unfold serviceStep
  cases v.stage with
  | sample => exact (accepts_serviceChannels s v mainIndices).setSvc _
  | clear => exact accepts_of_same rfl rfl rfl

theorem accepts_switchPresses (old new : BitVec 16) (is : List (Fin Config.nSw)) :
    Accepts [] s (switchPresses old new is s) := by
  induction is generalizing s with
  | nil => exact accepts_refl
  | cons i rest ih =>
    refine Accepts.trans ?_ (ih _)
    split
    · exact (accepts_applySw (s.emit (.switchChanged i)) _ _).from_same rfl rfl rfl
    · exact accepts_refl

theorem accepts_switchPoll (snap : BitVec 16) (now : Time) : Accepts [] s (switchPoll snap now s) := by
  unfold switchPoll
  split
  · exact accepts_refl
  · have hpolled : Accepts [] s { s with sw := { s.sw with tPoll := now } } := accepts_refl.setSw _
    exact (hpolled.trans (accepts_switchPresses _ s.sw.snap snap switchIndices)).setSw _

theorem accepts_buttonPoll (snap : BitVec 16) (now : Time) : Accepts [] s (buttonPoll snap now s) := by
  unfold buttonPoll
  split
  · exact accepts_refl
  · dsimp only
    rw [buttonPresses_eq]
    exact accepts_of_same rfl rfl rfl

/-! ## The instructions that decide something themselves -/

theorem execSetbank_accepts (bank : Byte) : NextSatisfies (Accepts [] s) (execSetbank bank s) := by
  unfold execSetbank
  split
  · exact accepts_of_same rfl rfl rfl
  · exact accepts_refl

theorem execResetslot_accepts (bank track : Byte) : NextSatisfies (Accepts [] s) (execResetslot bank track s) := by
  unfold execResetslot
  split
  · exact accepts_of_same rfl rfl rfl
  · exact accepts_refl

theorem execSlotread_accepts (bank track : Byte) : NextSatisfies (Accepts [] s) (execSlotread bank track s) := by
  unfold execSlotread
  split <;> exact accepts_of_same rfl rfl rfl

theorem execCfgwrite_accepts (bank track : Byte) (edit : CfgEdit) :
    NextSatisfies (Accepts [] s) (execCfgwrite bank track edit s) := by
  unfold execCfgwrite
  split
  · split
    · trivial
    · split
      · exact accepts_of_same rfl rfl rfl
      · trivial
  · exact accepts_refl

/-- An ENQ that completes returns one answer and accepts its message exactly if the answer is ok (42_outbound.md R201,
R202). -/
theorem execEnq_next {m : Msg} (h : execEnq m s = .next t) :
    ∃ ok : Bool, Moves (if ok then [m] else []) [] [] s t ∧ t.out.rets = s.out.rets ++ [.enq ok] := by
  unfold execEnq at h
  split at h
  · cases h
    exact ⟨_, (moves_enqueue m s).to_same rfl rfl rfl, by rw [State.ret_rets, enqueue_out]⟩
  · cases h

theorem execEnq_accepts (m : Msg) : NextSatisfies (Accepts [] s) (execEnq m s) :=
  nextSatisfies_iff.mpr fun _ h =>
    have ⟨_, hmoves, _⟩ := execEnq_next s h
    ⟨_, hmoves⟩

theorem execFlagset_accepts (k : Nat) : NextSatisfies (Accepts [] s) (execFlagset k s) := by
  unfold execFlagset
  split
  · exact accepts_of_same rfl rfl rfl
  · trivial

theorem execFlagclr_accepts (k : Nat) : NextSatisfies (Accepts [] s) (execFlagclr k s) := by
  unfold execFlagclr
  split
  · exact accepts_of_same rfl rfl rfl
  · trivial

theorem execEncservice_accepts (k : Nat) (ph : Vector (BitVec 2) Config.nMain) (now : Time) :
    NextSatisfies (Accepts [] s) (execEncservice k ph now s) := by
  unfold execEncservice
  split
  · split
    · exact accepts_of_same rfl rfl rfl
    · exact accepts_refl
  · trivial

theorem execSnap16_accepts (button : Bool) (snap : BitVec 16) (now : Time) :
    NextSatisfies (Accepts [] s) (execSnap16 button snap now s) := by
  cases button with
  | true => exact accepts_buttonPoll s _ _
  | false => exact accepts_switchPoll s _ _

theorem execNavenc_accepts (ph : BitVec 2) (now : Time) : NextSatisfies (Accepts [] s) (execNavenc ph now s) := by
  unfold execNavenc
  split
  · exact accepts_refl
  · exact (accepts_sample { s with navPoll := now } _ _ _).from_same rfl rfl rfl

theorem execNavbtn_accepts (lvl : Bool) (now : Time) : NextSatisfies (Accepts [] s) (execNavbtn lvl now s) := by
  unfold execNavbtn
  split
  · exact accepts_of_same rfl rfl rfl
  · split
    · dsimp only
      split <;> exact accepts_of_same rfl rfl rfl
    · exact accepts_refl

theorem execRt_accepts (status : Byte) (now : Time) : NextSatisfies (Accepts [] s) (execRt status now s) := by
  unfold execRt
  split
  · rw [realtime_frame]
    exact accepts_of_same rfl rfl rfl
  · trivial

theorem execMtcfull_accepts (hh mm ss ff : Byte) (r : BitVec 2) :
    NextSatisfies (Accepts [] s) (execMtcfull hh mm ss ff r s) := by
  unfold execMtcfull
  iterate 7 refine Accepts.trans ?_ (accepts_quarterPacket _ _ _)
  exact accepts_quarterPacket s _ _

end Accepting

/-! ## The bytes of the TX rows -/

section TxRows

variable (c : BitVec 4) (a b : BitVec 7)

theorem serialise_controlChange :
    serialise (.controlChange (c.toNat + 1) a.toNat b.toNat) = [0xB#4 ++ c, 0#1 ++ a, 0#1 ++ b] := by
  simp [serialise, statusByte_append, ← setWidth_append, BitVec.ofNat_toNat]

theorem serialise_noteOn :
    serialise (.noteOn (c.toNat + 1) a.toNat b.toNat) = [0x9#4 ++ c, 0#1 ++ a, 0#1 ++ b] := by
  simp [serialise, statusByte_append, ← setWidth_append, BitVec.ofNat_toNat]

theorem serialise_noteOff :
    serialise (.noteOff (c.toNat + 1) a.toNat b.toNat) = [0x8#4 ++ c, 0#1 ++ a, 0#1 ++ b] := by
  simp [serialise, statusByte_append, ← setWidth_append, BitVec.ofNat_toNat]

/-- The low half of the 14-bit value goes out first (42_outbound.md R214). -/
theorem serialise_pitchBend :
    serialise (.pitchBend (c.toNat + 1) (((b ++ a).toNat : Int) - 8192)) = [0xE#4 ++ c, 0#1 ++ a, 0#1 ++ b] := by
  simp [serialise, statusByte_append, bendWire_append, extract_append_7_7, ← setWidth_append]

end TxRows

/-! ## Every instruction -/

/-- Every row but DRAIN takes nothing from the queue and puts no bytes but its own on the wire. -/
theorem exec_accepts (i : Instr) (s : State) (hi : i ≠ .drain) : NextSatisfies (Accepts i.puts s) (exec i s) :=
  match i with
  | .drain => absurd rfl hi
  | .txControlChange c k v => accepts_tx s (serialise_controlChange c k v)
  | .txNoteOn c n v => accepts_tx s (serialise_noteOn c n v)
  | .txNoteOff c n v => accepts_tx s (serialise_noteOff c n v)
  | .txPitchBend c l m => accepts_tx s (serialise_pitchBend c l m)
  | .txRealtime .. | .txSysEx .. => accepts_tx s rfl
  | .qcode0000 .. | .qcode0001 .. | .qcode0010 .. | .qcode0011 .. | .qcode0100 .. | .qcode0101 .. | .qcode0110 ..
  | .qcode0111 .. | .qcode1000 .. | .qcode1001 .. | .qcode1010 .. | .qcode1011 .. | .qcode1100 .. | .qcode1101 ..
  | .qcode1110 .. | .qcode1111 .. => accepts_sampleCode s _ _ _
  | .pktCv8 .. | .pktCv9 .. | .pktCvA .. | .pktCvB .. | .pktCvC .. | .pktCvD .. | .pktCvE .. | .pktMtc ..
  | .pktRtF8 .. | .pktRtF9 .. | .pktRtFA .. | .pktRtFB .. | .pktRtFC .. | .pktRtFD .. | .pktRtFE .. | .pktRtFF ..
  | .pktIgnored .. | .rxpkt .. | .sysreset .. | .rtbyte .. => accepts_receivePacket s _ _ _ _
  | .qfP0 .. | .qfP1 .. | .qfP2 .. | .qfP3 .. | .qfP4 .. | .qfP5 .. | .qfP6 .. | .qfP7 .. | .mtcqf .. =>
    accepts_mtcPiece s _ _
  | .sxT01 .. | .sxT02 .. | .sxT03 .. | .sxT04 .. | .sxT05 .. | .sxT06 .. | .sxMalformed .. | .xport8 ..
  | .rxsysex .. | .sx .. => accepts_receiveFrame s _
  | .rgb565 .. | .pack565 .. | .unpack565 .. | .statread .. | .serialize | .setaccel _ | .resetall | .deserialize _ =>
    accepts_of_same rfl rfl rfl
  | .turncw .. | .turnccw .. => accepts_turn s _ _ _ _ _ _ _
  | .qsample .. => accepts_sample s _ _ _
  | .swpoll .. => accepts_switchPoll s _ _
  | .btnpoll .. => accepts_buttonPoll s _ _
  | .applystep .. => accepts_applyStep s _ _ _
  | .applysw .. => accepts_applySw s _ _
  | .dawsync .. => accepts_dawSync s _ _ _ _ _
  | .qframe .. => accepts_quarterPacket s _ _
  | .setbank _ => execSetbank_accepts s _
  | .resetslot .. => execResetslot_accepts s _ _
  | .slotread .. => execSlotread_accepts s _ _
  | .cfgwrite .. => execCfgwrite_accepts s _ _ _
  | .enq _ => execEnq_accepts s _
  | .flagset _ => execFlagset_accepts s _
  | .flagclr _ => execFlagclr_accepts s _
  | .encservice .. => execEncservice_accepts s _ _ _
  | .snap16 .. => execSnap16_accepts s _ _ _
  | .navenc .. => execNavenc_accepts s _ _
  | .navbtn .. => execNavbtn_accepts s _ _
  | .rt .. => execRt_accepts s _ _
  | .mtcfull .. => execMtcfull_accepts s _ _ _ _ _

/-- What an instruction that answers moves through the queue; only DRAIN takes a message, the oldest. -/
theorem exec_moves {i : Instr} {s t : State} (h : exec i s = .next t) :
    ∃ accepted gone, Moves accepted gone i.puts s t ∧
      (i = .drain → accepted = [] ∧ gone = s.oq.contents.take 1) ∧ (i ≠ .drain → gone = []) := by
  by_cases hi : i = .drain
  · subst hi
    obtain rfl : drain s = t := by injection h
    exact ⟨[], _, moves_drain s, fun _ => ⟨rfl, rfl⟩, fun hne => absurd rfl hne⟩
  · obtain ⟨accepted, hmoves⟩ := nextSatisfies_iff.mp (exec_accepts i s hi) t h
    exact ⟨accepted, [], hmoves, fun hdrain => absurd hdrain hi, fun _ => rfl⟩

/-! ## Runs of ENQs and DRAINs -/

theorem execAll_cons_next {i : Instr} {rest : List Instr} {s t : State} (h : execAll (i :: rest) s = .next t) :
    ∃ u, exec i s = .next u ∧ execAll rest u = .next t := by
  rw [execAll] at h
  cases hexec : exec i s with
  | next u => exact ⟨u, rfl, by rwa [hexec] at h⟩
  | fault r => simp [hexec] at h
  | refused r => simp [hexec] at h

/-- The messages of a list that were answered ok. -/
def answeredOk (msgs : List Msg) (answers : List Bool) : List Msg := ((msgs.zip answers).filter (·.2)).map (·.1)

theorem answeredOk_cons (m : Msg) (msgs : List Msg) (ok : Bool) (answers : List Bool) :
    answeredOk (m :: msgs) (ok :: answers) = (if ok then [m] else []) ++ answeredOk msgs answers := by
  cases ok <;> rfl

/-- A run of ENQs and DRAINs accepts the messages it answers ok, with one answer for each ENQ. -/
theorem execAll_moves (ops : List Instr) {s t : State} (hops : ∀ i ∈ ops, i = .drain ∨ ∃ m, i = .enq m)
    (h : execAll ops s = .next t) :
    ∃ answers gone, answers.length = (ops.filterMap Instr.sent).length ∧
      t.out.rets = s.out.rets ++ answers.map Ret.enq ∧
      Moves (answeredOk (ops.filterMap Instr.sent) answers) gone [] s t := by
  induction ops generalizing s with
  | nil =>
    cases h
    exact ⟨[], [], rfl, by simp, moves_of_same rfl rfl rfl⟩
  | cons i rest ih =>
    obtain ⟨u, hexec, hrest⟩ := execAll_cons_next h
    obtain ⟨hi, hrestops⟩ := List.forall_mem_cons.mp hops
    obtain ⟨answers, gone, hlen, hrets, hmoves⟩ := ih hrestops hrest
    obtain rfl | ⟨m, rfl⟩ := hi
    · obtain rfl : drain s = u := by injection hexec
      exact ⟨answers, _, hlen, drain_rets s ▸ hrets, (moves_drain s).trans hmoves⟩
    · obtain ⟨ok, hsent, hanswer⟩ := execEnq_next s hexec
      refine ⟨ok :: answers, gone, congrArg (· + 1) hlen, by simp [hrets, hanswer], ?_⟩
      have hcons := answeredOk_cons m (rest.filterMap Instr.sent) ok answers
      exact hcons ▸ hsent.trans hmoves

/-! ## Every step that is no reset -/

/-- Everything a step of agent SEQ that answers can be: the next step of a service, nothing, or the instruction
presented next. -/
theorem sequencerStep_next_cases {s t : State} (h : sequencerStep s = .next t) :
    (∃ v, s.svc = some v ∧ t = serviceStep v s) ∨ (s.inp.inbox = [] ∧ t = s) ∨
      ∃ x rest i, s.inp.inbox = x :: rest ∧ decode x = .ok i ∧
        exec i { s with inp := { s.inp with inbox := rest } } = .next t := by
  cases hsvc : s.svc with
  | some v =>
    rw [sequencerStep_of_service hsvc] at h
    cases h
    exact .inl ⟨v, rfl, rfl⟩
  | none =>
    cases hinbox : s.inp.inbox with
    | nil =>
      rw [sequencerStep_of_idle hsvc hinbox] at h
      cases h
      exact .inr (.inl ⟨rfl, rfl⟩)
    | cons x rest =>
      cases hdec : decode x with
      | ok i =>
        rw [sequencerStep_of_ok hsvc hinbox hdec] at h
        exact .inr (.inr ⟨x, rest, i, rfl, hdec, hsvc ▸ h⟩)
      | error why =>
        rw [sequencerStep_of_error hsvc hinbox hdec] at h
        cases h

/-- A step that is no reset is FLAGSET of a line or a step of agent SEQ, with only the edges to come changed before
it. -/
theorem step_cases {s : State} (hrst : s.inp.rst = 0) :
    ∃ irq, (∃ k, step s = exec (.flagset k) { s with inp := { s.inp with irq := irq } }) ∨
      step s = sequencerStep { s with inp := { s.inp with irq := irq } } := by
  by_cases hlater : ∀ e es, s.inp.irq = e :: es → e.after ≠ 0
  · exact ⟨_, .inr (step_of_no_edge hrst hlater)⟩
  · push Not at hlater
    obtain ⟨e, es, hirq, hdue⟩ := hlater
    exact ⟨es, .inl ⟨e.line, step_of_edge hrst hirq hdue⟩⟩

/-- What a step from `s` to `t` moves through the queue: what leaves and what goes on the wire comes from the
transaction the step takes (20_memory.md R63). -/
def StepMoves (s t : State) : Prop :=
  ∃ (accepted gone : List Msg) (own : List Byte),
    s.oq.contents ++ accepted = gone ++ t.oq.contents ∧
    t.out.wire = s.out.wire ++ gone.flatMap serialise ++ own ∧
    (gone ≠ [] ∨ own ≠ [] → ∃ x i, s.inp.inbox = x :: t.inp.inbox ∧ decode x = .ok i ∧ i.puts = own ∧
      (gone ≠ [] → i = .drain ∧ accepted = [] ∧ gone = s.oq.contents.take 1))

theorem stepMoves_of_accepts {s t : State} (h : Accepts [] s t) : StepMoves s t := by
  obtain ⟨accepted, hmoves⟩ := h
  exact ⟨accepted, [], [], hmoves.queue, hmoves.wire, fun hsome => by simp at hsome⟩

theorem stepMoves_of_exec {s t : State} {x : Xact} {rest : List Xact} {i : Instr}
    (hinbox : s.inp.inbox = x :: rest) (hdec : decode x = .ok i)
    (h : exec i { s with inp := { s.inp with inbox := rest } } = .next t) :
    StepMoves s t := by
  obtain ⟨accepted, gone, hmoves, hdrain, hother⟩ := exec_moves h
  have htaken : s.inp.inbox = x :: t.inp.inbox := by rw [hmoves.inp, hinbox]
  refine ⟨accepted, gone, i.puts, hmoves.queue, hmoves.wire, fun _ => ⟨x, i, htaken, hdec, rfl, fun hgone => ?_⟩⟩
  have hi : i = .drain := not_not.mp fun hne => hgone (hother hne)
  exact ⟨hi, hdrain hi⟩

theorem sequencerStep_moves {s t : State} (h : sequencerStep s = .next t) : StepMoves s t := by
  obtain ⟨v, -, rfl⟩ | ⟨-, rfl⟩ | ⟨x, rest, i, hinbox, hdec, hexec⟩ := sequencerStep_next_cases h
  · exact stepMoves_of_accepts (accepts_serviceStep s v)
  · exact stepMoves_of_accepts accepts_refl
  · exact stepMoves_of_exec hinbox hdec hexec

/-- What a step moves does not depend on the edges to come. -/
theorem stepMoves_irq {s t : State} {irq : List Edge}
    (h : StepMoves { s with inp := { s.inp with irq := irq } } t) : StepMoves s t := h

theorem step_moves {s t : State} (hrst : s.inp.rst = 0) (h : step s = .next t) : StepMoves s t := by
  obtain ⟨irq, ⟨k, hedge⟩ | hseq⟩ := step_cases hrst
  · have haccepts := nextSatisfies_iff.mp (execFlagset_accepts _ k) t (hedge.symm.trans h)
    exact stepMoves_irq (stepMoves_of_accepts haccepts)
  · exact stepMoves_irq (sequencerStep_moves (hseq.symm.trans h))

/-- Settles O42: over runs by induction on the operations, of an instruction row by row, of a step by its cases. -/
theorem fifoLaw : Obligations.FifoLaw := by
  refine ⟨fun ops s t hops h => ?_, fun i s t h => ?_, fun s t hrst h => step_moves hrst h⟩
  · obtain ⟨answers, gone, hlen, hrets, hmoves⟩ := execAll_moves ops hops h
    exact ⟨answers, gone, hlen, hrets, hmoves.queue, hmoves.wire.trans (List.append_nil _)⟩
  · obtain ⟨accepted, gone, hmoves, hdrain, hother⟩ := exec_moves h
    exact ⟨accepted, gone, hmoves.queue, hmoves.wire, hdrain, hother⟩

end Sys2Proof.Machine

/-! PROOFS. The family of 30_encoding.md: the decoder reads back what the encoder writes, port by port; and each row of a
format does what the operation it stands for does. -/

namespace Sys2Proof

/-! ## The quadrature port -/

theorem decode_encodeCode (code : BitVec 4) (ch : Fin Config.nCh) (now : Time) :
    decode (encodeCode (code.setWidth 8) ch now) = .ok (instrOfCode code ch now) := by
  change (narrow 4 (code.setWidth 8) >>= fun c => channelOf (BitVec.ofNat 8 ch.val) >>= fun k =>
    pure (instrOfCode c k (be32 _ _ _ _))) = _
  rw [narrow_setWidth (by decide), channelOf_ofNat, be32_bytes32]
  rfl

/-! ## The packet port -/

theorem isVoiceHeader_iff (header : Byte) :
    isVoiceHeader header = true ↔ 8 ≤ (cin header).toNat ∧ (cin header).toNat ≤ 14 := by
  rw [isVoiceHeader, Bool.and_eq_true_iff, decide_eq_true_iff, decide_eq_true_iff]
  rfl

theorem packetClass_voice {header : Byte} (status : Byte) (h : isVoiceHeader header = true) :
    packetClass header status = .voice := if_pos ((isVoiceHeader_iff header).mp h)

theorem packetClass_mtc {header : Byte} (h : isVoiceHeader header = false) : packetClass header 0xF1 = .mtc := by
  rw [packetClass, if_neg (by simp [← isVoiceHeader_iff, h]), if_pos rfl]

theorem packetClass_realtime {header status : Byte} (hcin : cin header = 0xF) (h : 0xF8 ≤ status.toNat) :
    packetClass header status = .realtime := by
  have hmtc : status ≠ 0xF1 := by
    rintro rfl
    exact absurd h (by decide)
  rw [packetClass, if_neg (by rw [hcin]; decide), if_neg hmtc, if_pos ⟨by rw [hcin]; rfl, h⟩]

theorem packetClass_ignored {header status : Byte} (h : isIgnoredPacket header status = true) :
    packetClass header status = .ignored := by
  simp only [isIgnoredPacket, Bool.and_eq_true_iff, Bool.not_eq_true', decide_eq_true_iff] at h
  obtain ⟨⟨hvoice, hmtc⟩, hrt⟩ := h
  rw [packetClass, if_neg (by simp [← isVoiceHeader_iff, hvoice]), if_neg hmtc, if_neg]
  simpa [cin] using hrt

/-- The row of a channel-voice packet, by its code-index number (30_encoding.md R94, row 1). -/
def voiceRow (c hi : BitVec 4) (status data1 data2 : Byte) (now : Time) : Instr :=
  match c.toNat with
  | 8 => .pktCv8 hi status data1 data2 now
  | 9 => .pktCv9 hi status data1 data2 now
  | 10 => .pktCvA hi status data1 data2 now
  | 11 => .pktCvB hi status data1 data2 now
  | 12 => .pktCvC hi status data1 data2 now
  | 13 => .pktCvD hi status data1 data2 now
  | _ => .pktCvE hi status data1 data2 now

/-- The row of a realtime packet, by its status (30_encoding.md R94, row 3). -/
def realtimeRow (hi : BitVec 4) (status data1 data2 : Byte) (now : Time) : Instr :=
  match status.toNat with
  | 0xF8 => .pktRtF8 hi data1 data2 now
  | 0xF9 => .pktRtF9 hi data1 data2 now
  | 0xFA => .pktRtFA hi data1 data2 now
  | 0xFB => .pktRtFB hi data1 data2 now
  | 0xFC => .pktRtFC hi data1 data2 now
  | 0xFD => .pktRtFD hi data1 data2 now
  | 0xFE => .pktRtFE hi data1 data2 now
  | _ => .pktRtFF hi data1 data2 now

section PacketPort

variable (hi : BitVec 4) (header status data1 data2 : Byte) (now : Time)

theorem decode_voicePacket (c : BitVec 4) (h : 8 ≤ c.toNat ∧ c.toNat ≤ 14) :
    decode (encodePacket (hi ++ c) status data1 data2 now) = .ok (voiceRow c hi status data1 data2 now) := by
  have hclass : packetClass (hi ++ c) status = .voice :=
    packetClass_voice _ ((isVoiceHeader_iff _).mpr (by rwa [Machine.cin_append]))
  change decodePacket [hi ++ c, _, _, _, _, _, _, _] = _
  rw [decodePacket, hclass]
  dsimp only
  rw [be32_bytes32, high_append, Machine.cin_append, voiceRow]
  split <;> simp only [*]

theorem decode_realtimePacket (h : 0xF8 ≤ status.toNat) :
    decode (encodePacket (hi ++ 0xF#4) status data1 data2 now) = .ok (realtimeRow hi status data1 data2 now) := by
  have hclass : packetClass (hi ++ 0xF#4) status = .realtime := packetClass_realtime (Machine.cin_append hi _) h
  change decodePacket [hi ++ 0xF#4, _, _, _, _, _, _, _] = _
  rw [decodePacket, hclass]
  dsimp only
  rw [be32_bytes32, high_append]
  unfold realtimeRow
  split <;> simp only [*]

theorem decode_mtcPacket (h : isVoiceHeader header = false) :
    decode (encodePacket header 0xF1 data1 data2 now) = .ok (.pktMtc header data1 data2 now) := by
  change decodePacket [header, _, _, _, _, _, _, _] = _
  rw [decodePacket, packetClass_mtc h, be32_bytes32]

theorem decode_ignoredPacket (h : isIgnoredPacket header status = true) :
    decode (encodePacket header status data1 data2 now) = .ok (.pktIgnored header status data1 data2 now) := by
  change decodePacket [header, _, _, _, _, _, _, _] = _
  rw [decodePacket, packetClass_ignored h, be32_bytes32]

end PacketPort

/-! ## The quarter-frame port -/

theorem topBit_quarterByte (x : BitVec 1) (p : BitVec 3) (n : BitVec 4) : (quarterByte x p n).extractLsb' 7 1 = x := by
  apply BitVec.eq_of_getLsbD_eq
  intro i hi
  simp only [quarterByte, BitVec.getLsbD_extractLsb', Machine.getLsbD_append_1_3_4]
  interval_cases i
  simp

/-- The row of a quarter-frame byte, by its piece (30_encoding.md R104, R105). -/
def quarterRow (p : BitVec 3) (x : BitVec 1) (n : BitVec 4) : Instr :=
  match p.toNat with
  | 0 => .qfP0 x n
  | 1 => .qfP1 x n
  | 2 => .qfP2 x n
  | 3 => .qfP3 x n
  | 4 => .qfP4 x n
  | 5 => .qfP5 x n
  | 6 => .qfP6 x n
  | _ => .qfP7 x n

theorem decode_quarterByte (p : BitVec 3) (x : BitVec 1) (n : BitVec 4) :
    decode ⟨.qf8, [quarterByte x p n]⟩ = .ok (quarterRow p x n) := by
  have hp : (quarterByte x p n).extractLsb' 4 3 = p := Machine.pieceOf_quarterByte x p n
  have hn : (quarterByte x p n).extractLsb' 0 4 = n := Machine.nibbleOf_quarterByte x p n
  change decodeQuarter [_] = _
  rw [decodeQuarter, topBit_quarterByte, hp, hn, quarterRow]
  split <;> simp only [*]

/-! ## The frame port -/

/-- The row of a vendor frame, by its type; a frame of an unknown type is malformed (30_encoding.md R102,
43_inbound_sysex.md R247). -/
def frameRow (t track bank : Byte) (payload : List Byte) : Instr :=
  match t.toNat with
  | 1 => .sxT01 track bank payload
  | 2 => .sxT02 track bank payload
  | 3 => .sxT03 track bank payload
  | 4 => .sxT04 track bank payload
  | 5 => .sxT05 track bank payload
  | 6 => .sxT06 track bank payload
  | _ => .sxMalformed (frameOf t track bank payload)

theorem decode_frameOf (t track bank : Byte) (payload : List Byte) :
    decode ⟨.sysex, frameOf t track bank payload⟩ = .ok (frameRow t track bank payload) := by
  change decodeFrame _ = _
  rw [decodeFrame, Machine.parseFrame_frameOf, frameRow]
  dsimp only
  split <;> simp only [*]

/-- The envelope check passes for the frames that are built and for no other bytes (43_inbound_sysex.md R241). -/
theorem eq_frameOf_of_parseFrame {bytes payload : List Byte} {t track bank : Byte}
    (h : parseFrame Config.r9.sysexId bytes = some (t, track, bank, payload)) : bytes = frameOf t track bank payload := by
  unfold parseFrame at h
  split at h
  case h_1 b0 b1 b2 b3 t' track' bank' rest =>
    split at h
    case isTrue hok =>
      obtain ⟨hid, hend⟩ := hok
      obtain ⟨rfl, rfl, rfl, rfl⟩ : t' = t ∧ track' = track ∧ bank' = bank ∧ rest.dropLast = payload := by simpa using h
      rw [frameOf, ← hid]
      simp [List.dropLast_append_getLast? _ hend]
    case isFalse => cases h
  case h_2 => cases h

theorem isKnownFrame_frameOf (t track bank : Byte) (payload : List Byte) :
    isKnownFrame (frameOf t track bank payload) = (decide (1 ≤ t.toNat) && decide (t.toNat ≤ 6)) := by
  have hend : (frameOf t track bank payload).getLast? = some Config.sysexEnd := List.getLast?_concat
  have htake : (frameOf t track bank payload).take 4 = Config.r9.sysexId := rfl
  have htype : (frameOf t track bank payload).getD 4 0 = t := rfl
  simp only [isKnownFrame, Machine.length_frameOf, hend, htake, htype, Nat.le_add_left, decide_true, Bool.true_and]

theorem frameRow_unknown {t : Byte} (track bank : Byte) (payload : List Byte) (h : t.toNat < 1 ∨ 6 < t.toNat) :
    frameRow t track bank payload = .sxMalformed (frameOf t track bank payload) := by
  unfold frameRow
  split
  case h_7 => rfl
  all_goals omega

theorem decode_malformedFrame {bytes : List Byte} (h : isKnownFrame bytes = false) :
    decode ⟨.sysex, bytes⟩ = .ok (.sxMalformed bytes) := by
  cases hparse : parseFrame Config.r9.sysexId bytes with
  | none =>
    change decodeFrame bytes = _
    rw [decodeFrame, hparse]
  | some parts =>
    obtain ⟨t, track, bank, payload⟩ := parts
    obtain rfl := eq_frameOf_of_parseFrame hparse
    simp only [isKnownFrame_frameOf, Bool.and_eq_false_iff, decide_eq_false_iff_not, not_le] at h
    rw [decode_frameOf, frameRow_unknown _ _ _ h]

/-! ## The ports of the wire formats and of the values -/

/-- The row of a channel-voice message, by its type nibble (30_encoding.md R97). -/
def voiceMessageRow (type c : BitVec 4) (a b : BitVec 7) : Except Reject Instr :=
  match type.toNat with
  | 0xB => .ok (.txControlChange c a b)
  | 0x9 => .ok (.txNoteOn c a b)
  | 0x8 => .ok (.txNoteOff c a b)
  | 0xE => .ok (.txPitchBend c a b)
  | _ => .error .badMessage

theorem decode_encodeVoice (type c : BitVec 4) (a b : BitVec 7) :
    decode (encodeVoice type c a b) = voiceMessageRow type c a b := by
  change decodeVoice [_, _, _] = _
  rw [decodeVoice, narrow_setWidth (by decide), narrow_setWidth (by decide), high_append, low_append]
  rfl

theorem extract_append_5_6_5 (r : BitVec 5) (g : BitVec 6) (b : BitVec 5) :
    (r ++ g ++ b : BitVec 16).extractLsb' 11 5 = r ∧ (r ++ g ++ b : BitVec 16).extractLsb' 5 6 = g ∧
      (r ++ g ++ b : BitVec 16).extractLsb' 0 5 = b := by
  refine ⟨?_, ?_, ?_⟩ <;>
  · apply BitVec.eq_of_getLsbD_eq
    intro i hi
    simp only [BitVec.getLsbD_extractLsb', Machine.getLsbD_append_5_6_5]
    interval_cases i <;> simp

theorem decode_rgb565 (r : BitVec 5) (g : BitVec 6) (b : BitVec 5) :
    decode ⟨.rgb565, bytes16 (r ++ g ++ b)⟩ = .ok (.rgb565 r g b) := by
  obtain ⟨hr, hg, hb⟩ := extract_append_5_6_5 r g b
  change Except.ok (Instr.rgb565 ((be16 _ _).extractLsb' 11 5) ((be16 _ _).extractLsb' 5 6)
    ((be16 _ _).extractLsb' 0 5)) = _
  rw [be16_bytes16, hr, hg, hb]

theorem decode_snap16 (button : Bool) (snap : BitVec 16) (now : Time) :
    decode ⟨.snap16, bytes16 snap ++ (byteOfBool button :: bytes32 now)⟩ = .ok (.snap16 button snap now) := by
  change (boolOf (byteOfBool button)).map (fun v => Instr.snap16 v (be16 _ _) (be32 _ _ _ _)) = _
  rw [boolOf_byteOfBool, be16_bytes16, be32_bytes32]
  rfl

/-! ## The command port -/

theorem ok_congr {α β : Type} (mk : α → β) {a b : α} (h : a = b) : (Except.ok (mk a) : Except Reject β) = .ok (mk b) :=
  congrArg _ (congrArg mk h)

theorem map_ok {α β : Type} (mk : α → β) {x : Except Reject α} {a : α} (h : x = .ok a) : x.map mk = .ok (mk a) :=
  congrArg (Except.map mk) h

theorem decode_qsample (ch : Fin Config.nCh) (ph : BitVec 2) (now : Time) :
    decode (encodeOp 0x10 ([BitVec.ofNat 8 ch.val, ph.setWidth 8] ++ bytes32 now)) = .ok (.qsample ch ph now) := by
  change (channelOf (BitVec.ofNat 8 ch.val) >>= fun k => narrow 2 (ph.setWidth 8) >>= fun p =>
    pure (Instr.qsample k p (be32 _ _ _ _))) = _
  rw [channelOf_ofNat, narrow_setWidth (by decide), be32_bytes32]
  rfl

theorem decode_navenc (ph : BitVec 2) (now : Time) :
    decode (encodeOp 0x15 (ph.setWidth 8 :: bytes32 now)) = .ok (.navenc ph now) := by
  change (narrow 2 (ph.setWidth 8) >>= fun p => pure (Instr.navenc p (be32 _ _ _ _))) = _
  rw [narrow_setWidth (by decide), be32_bytes32]
  rfl

theorem decode_navbtn (lvl : Bool) (now : Time) :
    decode (encodeOp 0x16 (byteOfBool lvl :: bytes32 now)) = .ok (.navbtn lvl now) := by
  change (boolOf (byteOfBool lvl) >>= fun v => pure (Instr.navbtn v (be32 _ _ _ _))) = _
  rw [boolOf_byteOfBool, be32_bytes32]
  rfl

theorem decodeDawsync_encode (track bank : Byte) (value : Option Byte) (color : Option (BitVec 16))
    (name : Option (List Byte)) (h : (name.getD []).length ≤ Config.r9.nameRx) :
    decodeDawsync (encodeDawsync track bank value color name) = .ok (.dawsync track bank value color name) :=
  match value, color, name with
  | none, none, none => rfl
  | some _, none, none => rfl
  | none, some c, none => ok_congr (fun w => Instr.dawsync track bank none (some w) none) (be16_bytes16 c)
  | some v, some c, none => ok_congr (fun w => Instr.dawsync track bank (some v) (some w) none) (be16_bytes16 c)
  | none, none, some _ => if_pos h
  | some _, none, some _ => if_pos h
  | none, some c, some l =>
    (if_pos h).trans (ok_congr (fun w => Instr.dawsync track bank none (some w) (some l)) (be16_bytes16 c))
  | some v, some c, some l =>
    (if_pos h).trans (ok_congr (fun w => Instr.dawsync track bank (some v) (some w) (some l)) (be16_bytes16 c))

theorem decodeEdit_encode (edit : CfgEdit) (h : edit.fits = true) : decodeEdit (encodeEdit edit) = .ok edit :=
  match edit, h with
  | .channel _, h => ok_congr CfgEdit.channel (midiChannelOf_byteOf (of_decide_eq_true h))
  | .controlNumber _, h => ok_congr CfgEdit.controlNumber (toNat_ofNat8 (of_decide_eq_true h))
  | .controlType v, _ => map_ok CfgEdit.controlType (controlTypeOf_byteOfControlType v)
  | .isPan v, _ => map_ok CfgEdit.isPan (boolOf_byteOfBool v)
  | .localValue _, h => ok_congr CfgEdit.localValue (toNat_ofNat8 (of_decide_eq_true h))
  | .minValue _, h => ok_congr CfgEdit.minValue (toNat_ofNat8 (of_decide_eq_true h))
  | .maxValue _, h => ok_congr CfgEdit.maxValue (toNat_ofNat8 (of_decide_eq_true h))
  | .dawValue _, _ => rfl
  | .mute v, _ => map_ok CfgEdit.mute (boolOf_byteOfBool v)
  | .solo v, _ => map_ok CfgEdit.solo (boolOf_byteOfBool v)
  | .trackColor v, _ => ok_congr CfgEdit.trackColor (be16_bytes16 v)
  | .trackName _, _ => rfl

/-- A channel and two numbers of a message, each of one byte, read back. -/
theorem decodeFields_encode {α : Type} (f : Nat → Nat → Nat → α) {c k v : Nat}
    (h : (decide (c < 256) && decide (k < 256) && decide (v < 256)) = true) :
    f (midiChannelOf (byteOfMidiChannel c)) (BitVec.ofNat 8 k).toNat (BitVec.ofNat 8 v).toNat = f c k v := by
  simp only [Bool.and_eq_true_iff, decide_eq_true_iff] at h
  obtain ⟨⟨hc, hk⟩, hv⟩ := h
  rw [midiChannelOf_byteOf hc, toNat_ofNat8 hk, toNat_ofNat8 hv]

theorem decodeMsg_pitchBend {c : Nat} {v : Int} (h : (Msg.pitchBend c v).fits = true) :
    decodeMsg (encodeMsg (.pitchBend c v)) = .ok (.pitchBend c v) := by
  simp only [Msg.fits, Bool.and_eq_true_iff, decide_eq_true_iff] at h
  obtain ⟨⟨hc, hlo⟩, hhi⟩ := h
  change Except.ok (Msg.pitchBend (midiChannelOf (byteOfMidiChannel c)) (be16 _ _).toInt) = _
  rw [midiChannelOf_byteOf hc, be16_bytes16, toInt_bytes16 hlo hhi]

theorem decodeMsg_encode (msg : Msg) (h : msg.fits = true) : decodeMsg (encodeMsg msg) = .ok msg :=
  match msg, h with
  | .controlChange _ _ _, h => decodeFields_encode (fun c k v => Except.ok (Msg.controlChange c k v)) h
  | .noteOn _ _ _, h => decodeFields_encode (fun c n v => Except.ok (Msg.noteOn c n v)) h
  | .noteOff _ _ _, h => decodeFields_encode (fun c n v => Except.ok (Msg.noteOff c n v)) h
  | .pitchBend _ _, h => decodeMsg_pitchBend h
  | .sysEx _, _ => rfl
  | .realtime _, _ => rfl

/-! ## The pseudo-operation port -/

theorem decode_encservice {h : Nat} (hh : h < 256) (ph : Vector (BitVec 2) Config.nMain) (now : Time) :
    decode (encodePseudo 0 (BitVec.ofNat 8 h :: (ph.toList.map (fun p => p.setWidth 8) ++ bytes32 now))) =
      .ok (.encservice h ph now) := by
  change (decodePhases (ph.toList.map (fun p => p.setWidth 8) ++ bytes32 now) >>= _) = _
  rw [decodePhases_encode]
  change Except.ok (Instr.encservice (BitVec.ofNat 8 h).toNat ph (be32 _ _ _ _)) = _
  rw [toNat_ofNat8 hh, be32_bytes32]

theorem decode_rtbyte {s : Byte} (h : 0xF8 ≤ s.toNat) (now : Time) :
    decode (encodePseudo 2 (s :: bytes32 now)) = .ok (.rtbyte s now) :=
  (if_pos h).trans (ok_congr (Instr.rtbyte s) (be32_bytes32 now))

theorem decode_qframe (p : BitVec 3) (n : BitVec 4) :
    decode (encodePseudo 3 [p.setWidth 8, n.setWidth 8]) = .ok (.qframe p n) := by
  change (narrow 3 (p.setWidth 8) >>= fun p => narrow 4 (n.setWidth 8) >>= fun n => pure (Instr.qframe p n)) = _
  rw [narrow_setWidth (by decide), narrow_setWidth (by decide)]
  rfl

/-- The operands of a turn: a channel and two times. -/
theorem decodeTurn_encode (row : Fin Config.nCh → Time → Time → Instr) (ch : Fin Config.nCh) (t0 dt : Time) :
    (channelOf (BitVec.ofNat 8 ch.val)).map (fun k =>
      row k (be32 (t0.extractLsb' 24 8) (t0.extractLsb' 16 8) (t0.extractLsb' 8 8) (t0.extractLsb' 0 8))
        (be32 (dt.extractLsb' 24 8) (dt.extractLsb' 16 8) (dt.extractLsb' 8 8) (dt.extractLsb' 0 8))) =
      .ok (row ch t0 dt) := by
  rw [channelOf_ofNat, be32_bytes32, be32_bytes32]
  rfl

/-! ## Every instruction -/

theorem decode_encode (i : Instr) (h : i.wellFormed = true) : decode (encode i) = .ok i :=
  match i, h with
  | .qcode0000 ch now, _ => decode_encodeCode 0b0000 ch now
  | .qcode0001 ch now, _ => decode_encodeCode 0b0001 ch now
  | .qcode0010 ch now, _ => decode_encodeCode 0b0010 ch now
  | .qcode0011 ch now, _ => decode_encodeCode 0b0011 ch now
  | .qcode0100 ch now, _ => decode_encodeCode 0b0100 ch now
  | .qcode0101 ch now, _ => decode_encodeCode 0b0101 ch now
  | .qcode0110 ch now, _ => decode_encodeCode 0b0110 ch now
  | .qcode0111 ch now, _ => decode_encodeCode 0b0111 ch now
  | .qcode1000 ch now, _ => decode_encodeCode 0b1000 ch now
  | .qcode1001 ch now, _ => decode_encodeCode 0b1001 ch now
  | .qcode1010 ch now, _ => decode_encodeCode 0b1010 ch now
  | .qcode1011 ch now, _ => decode_encodeCode 0b1011 ch now
  | .qcode1100 ch now, _ => decode_encodeCode 0b1100 ch now
  | .qcode1101 ch now, _ => decode_encodeCode 0b1101 ch now
  | .qcode1110 ch now, _ => decode_encodeCode 0b1110 ch now
  | .qcode1111 ch now, _ => decode_encodeCode 0b1111 ch now
  | .pktCv8 hi status data1 data2 now, _ => decode_voicePacket hi status data1 data2 now 0x8 (by decide)
  | .pktCv9 hi status data1 data2 now, _ => decode_voicePacket hi status data1 data2 now 0x9 (by decide)
  | .pktCvA hi status data1 data2 now, _ => decode_voicePacket hi status data1 data2 now 0xA (by decide)
  | .pktCvB hi status data1 data2 now, _ => decode_voicePacket hi status data1 data2 now 0xB (by decide)
  | .pktCvC hi status data1 data2 now, _ => decode_voicePacket hi status data1 data2 now 0xC (by decide)
  | .pktCvD hi status data1 data2 now, _ => decode_voicePacket hi status data1 data2 now 0xD (by decide)
  | .pktCvE hi status data1 data2 now, _ => decode_voicePacket hi status data1 data2 now 0xE (by decide)
  | .pktMtc header qf data2 now, h => decode_mtcPacket header qf data2 now ((Bool.not_eq_true' _).mp h)
  | .pktRtF8 hi data1 data2 now, _ => decode_realtimePacket hi 0xF8 data1 data2 now (by decide)
  | .pktRtF9 hi data1 data2 now, _ => decode_realtimePacket hi 0xF9 data1 data2 now (by decide)
  | .pktRtFA hi data1 data2 now, _ => decode_realtimePacket hi 0xFA data1 data2 now (by decide)
  | .pktRtFB hi data1 data2 now, _ => decode_realtimePacket hi 0xFB data1 data2 now (by decide)
  | .pktRtFC hi data1 data2 now, _ => decode_realtimePacket hi 0xFC data1 data2 now (by decide)
  | .pktRtFD hi data1 data2 now, _ => decode_realtimePacket hi 0xFD data1 data2 now (by decide)
  | .pktRtFE hi data1 data2 now, _ => decode_realtimePacket hi 0xFE data1 data2 now (by decide)
  | .pktRtFF hi data1 data2 now, _ => decode_realtimePacket hi 0xFF data1 data2 now (by decide)
  | .pktIgnored header status data1 data2 now, h => decode_ignoredPacket header status data1 data2 now h
  | .qfP0 x n, _ => decode_quarterByte 0 x n
  | .qfP1 x n, _ => decode_quarterByte 1 x n
  | .qfP2 x n, _ => decode_quarterByte 2 x n
  | .qfP3 x n, _ => decode_quarterByte 3 x n
  | .qfP4 x n, _ => decode_quarterByte 4 x n
  | .qfP5 x n, _ => decode_quarterByte 5 x n
  | .qfP6 x n, _ => decode_quarterByte 6 x n
  | .qfP7 x n, _ => decode_quarterByte 7 x n
  | .sxT01 track bank payload, _ => decode_frameOf 1 track bank payload
  | .sxT02 track bank payload, _ => decode_frameOf 2 track bank payload
  | .sxT03 track bank payload, _ => decode_frameOf 3 track bank payload
  | .sxT04 track bank payload, _ => decode_frameOf 4 track bank payload
  | .sxT05 track bank payload, _ => decode_frameOf 5 track bank payload
  | .sxT06 track bank payload, _ => decode_frameOf 6 track bank payload
  | .sxMalformed _, h => decode_malformedFrame ((Bool.not_eq_true' _).mp h)
  | .txControlChange c k v, _ => decode_encodeVoice 0xB c k v
  | .txNoteOn c n v, _ => decode_encodeVoice 0x9 c n v
  | .txNoteOff c n v, _ => decode_encodeVoice 0x8 c n v
  | .txPitchBend c l m, _ => decode_encodeVoice 0xE c l m
  | .rgb565 r g b, _ => decode_rgb565 r g b
  | .snap16 button snap now, _ => decode_snap16 button snap now
  | .qsample ch ph now, _ => decode_qsample ch ph now
  | .flagset _, h => ok_congr Instr.flagset (toNat_ofNat8 (of_decide_eq_true h))
  | .flagclr _, h => ok_congr Instr.flagclr (toNat_ofNat8 (of_decide_eq_true h))
  | .swpoll snap now, _ => congrArg₂ (fun w n => Except.ok (Instr.swpoll w n)) (be16_bytes16 snap) (be32_bytes32 now)
  | .btnpoll snap now, _ => congrArg₂ (fun w n => Except.ok (Instr.btnpoll w n)) (be16_bytes16 snap) (be32_bytes32 now)
  | .navenc ph now, _ => decode_navenc ph now
  | .navbtn lvl now, _ => decode_navbtn lvl now
  | .setaccel en, _ => map_ok Instr.setaccel (boolOf_byteOfBool en)
  | .dawsync track bank value color name, h => decodeDawsync_encode track bank value color name (of_decide_eq_true h)
  | .cfgwrite bank track edit, h => map_ok (Instr.cfgwrite bank track) (decodeEdit_encode edit h)
  | .enq msg, h => map_ok Instr.enq (decodeMsg_encode msg h)
  | .rxpkt header status data1 data2 now, _ => ok_congr (Instr.rxpkt header status data1 data2) (be32_bytes32 now)
  | .unpack565 c, _ => ok_congr Instr.unpack565 (be16_bytes16 c)
  | .rt status now, _ => ok_congr (Instr.rt status) (be32_bytes32 now)
  | .encservice _ ph now, h => decode_encservice (of_decide_eq_true h) ph now
  | .sysreset now, _ => ok_congr Instr.sysreset (be32_bytes32 now)
  | .rtbyte _ now, h => decode_rtbyte (of_decide_eq_true h) now
  | .qframe p n, _ => decode_qframe p n
  | .mtcfull hh mm ss ff r, _ => map_ok (Instr.mtcfull hh mm ss ff) (narrow_setWidth (by decide) r)
  | .turncw ch t0 dt, _ => decodeTurn_encode Instr.turncw ch t0 dt
  | .turnccw ch t0 dt, _ => decodeTurn_encode Instr.turnccw ch t0 dt
  | .txRealtime _, _ | .txSysEx _, _ | .xport8 _, _ | .applystep _ _ _, _ | .applysw _ _, _ | .setbank _, _
  | .resetslot _ _, _ | .resetall, _ | .slotread _ _, _ | .serialize, _ | .deserialize _, _ | .drain, _ | .rxsysex _, _
  | .pack565 _ _ _, _ | .mtcqf _, _ | .statread _, _ | .sx _ _ _ _, _ => rfl

/-- Settles O1, port by port. -/
theorem decodeEncodeAgree : Obligations.DecodeEncodeAgree := decode_encode

end Sys2Proof

namespace Sys2Proof.Machine

/-! ## Packets and quarter frames -/

/-- A realtime packet is the realtime operation of its status (43_inbound_sysex.md R234). -/
theorem receivePacket_realtime {header status : Byte} (data1 : Byte) (now : Time) (s : State) (hcin : cin header = 0xF)
    (h : 0xF8 ≤ status.toNat) : receivePacket header status data1 now s = realtime status now s := by
  rw [receivePacket, packetClass_realtime hcin h]

/-- A packet of status F1 that is no channel-voice packet is the quarter frame it carries (43_inbound_sysex.md R235). -/
theorem receivePacket_mtc {header : Byte} (qf : Byte) (now : Time) (s : State) (h : isVoiceHeader header = false) :
    receivePacket header 0xF1 qf now s = quarterFrame qf s := by
  rw [receivePacket, packetClass_mtc h]

theorem quarterFrame_quarterByte (x : BitVec 1) (p : BitVec 3) (n : BitVec 4) (s : State) :
    quarterFrame (quarterByte x p n) s = mtcPiece p n s := by
  rw [quarterFrame, pieceOf_quarterByte, nibbleOf_quarterByte]

theorem quarterPacket_eq (p : BitVec 3) (n : BitVec 4) (s : State) : quarterPacket p n s = mtcPiece p n s :=
  (receivePacket_mtc _ 0 s (by decide)).trans (quarterFrame_quarterByte 0 p n s)

/-- RT answers what a realtime packet of its status does, whatever the rest of the packet (43_inbound_sysex.md R234). -/
theorem exec_rt_eq_packet {header status : Byte} (data1 : Byte) (now : Time) (s : State) (hcin : cin header = 0xF)
    (h : 0xF8 ≤ status.toNat) : exec (.rt status now) s = .next (receivePacket header status data1 now s) := by
  rw [receivePacket_realtime data1 now s hcin h]
  exact if_pos h

/-- Settles O46: each row is a realtime packet. -/
theorem realtimePacketsAct : Obligations.RealtimePacketsAct := by
  intro hi data1 data2 now s
  have packet := fun (status : Byte) (h : 0xF8 ≤ status.toNat) =>
    exec_rt_eq_packet data1 now s (cin_append hi 0xF#4) h
  have byte := fun (status : Byte) (h : 0xF8 ≤ status.toNat) =>
    exec_rt_eq_packet (header := 0x0F) 0x00 now s (by decide) h
  exact ⟨⟨_, rfl, packet 0xFA (by decide)⟩, ⟨_, rfl, packet 0xFB (by decide)⟩, ⟨_, rfl, packet 0xFC (by decide)⟩,
    ⟨_, rfl, packet 0xFE (by decide)⟩, ⟨_, rfl, packet 0xFF (by decide)⟩, fun b h => ⟨_, rfl, byte b h⟩,
    ⟨_, rfl, byte 0xFF (by decide)⟩⟩

/-- Settles O49: a QF8 row is the piece its byte carries; the packet rows are the quarter frame of their data byte. -/
theorem quarterFrameRows : Obligations.QuarterFrameRows := by
  have piece : ∀ (x : BitVec 1) (p : BitVec 3) (n : BitVec 4) (s : State),
      exec (.mtcqf (quarterByte x p n)) s = .next (mtcPiece p n s) :=
    fun x p n s => congrArg Host.Outcome.next (quarterFrame_quarterByte x p n s)
  refine ⟨fun x n s => ⟨⟨_, rfl, piece x 0 n s⟩, ⟨_, rfl, piece x 1 n s⟩, ⟨_, rfl, piece x 2 n s⟩,
    ⟨_, rfl, piece x 3 n s⟩, ⟨_, rfl, piece x 4 n s⟩, ⟨_, rfl, piece x 5 n s⟩, ⟨_, rfl, piece x 6 n s⟩,
    ⟨_, rfl, piece x 7 n s⟩⟩, fun hi c qf data2 now s hc => ?_, fun p n s => ?_⟩
  · have hvoice : isVoiceHeader (hi ++ c) = false := by
      rw [Bool.eq_false_iff, ne_eq, isVoiceHeader_iff, cin_append]
      obtain hlow | rfl := hc
      · omega
      · decide
    exact ⟨_, congrArg Host.Outcome.next (receivePacket_mtc qf now s hvoice), rfl⟩
  · exact ⟨_, congrArg Host.Outcome.next (quarterPacket_eq p n s), piece 0 p n s⟩

/-- A piece below 7 writes its half field and nothing else (44_mtc_transport.md R273 to R276). -/
theorem mtcPiece_lt7 {piece : BitVec 3} (n : BitVec 4) (s : State) (h : piece ≠ 7) :
    mtcPiece piece n s = { s with mtc := mtcNext s.cfg.valued piece n s.mtc } := by
  rw [mtcPiece_eq, if_neg (fun hlast => h hlast.1)]

/-- The validity test with the numbers of 00_scope.md R9 (44_mtc_transport.md R279). -/
theorem timeValid_r9 (m : Mtc) :
    timeValid Config.r9 m =
      decide (m.frames.toNat < 30 ∧ m.seconds.toNat < 60 ∧ m.minutes.toNat < 60 ∧ m.hours.toNat < 24) := by
  rw [Bool.eq_iff_iff]
  simp only [timeValid, Bool.and_eq_true, decide_eq_true_eq, and_assoc]
  rfl

/-- The timebase after the first seven pieces of a whole time: all fields but the high nibble of the hours. -/
theorem quarterPackets_fields (hh mm ss ff : Byte) (s : State) :
    quarterPacket 6 (hh.extractLsb' 0 4) (quarterPacket 5 (mm.extractLsb' 4 4) (quarterPacket 4 (mm.extractLsb' 0 4)
      (quarterPacket 3 (ss.extractLsb' 4 4) (quarterPacket 2 (ss.extractLsb' 0 4)
        (quarterPacket 1 (ff.extractLsb' 4 4) (quarterPacket 0 (ff.extractLsb' 0 4) s)))))) =
      { s with mtc := { s.mtc with hours := setLowNibble s.mtc.hours (hh.extractLsb' 0 4), minutes := mm, seconds := ss,
                                   frames := ff } } := by
  simp [quarterPacket_eq, mtcPiece_lt7, mtcNext, setNibbles]

/-- The last piece completes the hours and tests the time (44_mtc_transport.md R277 to R279). -/
theorem mtcNext_lastPiece (hh : Byte) (r : BitVec 2) {m : Mtc} {low : Byte}
    (hm : m.hours = setLowNibble low (hh.extractLsb' 0 4)) :
    mtcNext Config.r9 7 (lastNibble hh r) m =
      { m with hours := hh &&& 0x1F, running := decide (r ≠ 0),
               valid := decide (m.frames.toNat < 30 ∧ m.seconds.toNat < 60 ∧ m.minutes.toNat < 60 ∧
                 (hh &&& 0x1F).toNat < 24) } := by
  change { m with
    hours := setHighNibble m.hours (lastNibble hh r &&& 0b0001)
    running := runningOf (lastNibble hh r)
    valid := timeValid Config.r9 { m with hours := setHighNibble m.hours (lastNibble hh r &&& 0b0001),
                                          running := runningOf (lastNibble hh r) } } = _
  rw [timeValid_r9, hm, setNibbles_hours, runningOf_lastNibble]

/-- After the last piece the error counter grows exactly when the test fails (44_mtc_transport.md R281). -/
theorem mtcPiece_lastPiece {n : BitVec 4} {s : State} {m : Mtc} (hm : mtcNext s.cfg.valued 7 n s.mtc = m) :
    mtcPiece 7 n s = { s with mtc := m, errorCount := if m.valid then s.errorCount else s.errorCount + 1 } := by
  rw [mtcPiece_eq, hm]
  cases m.valid <;> rfl

/-- Settles O50: seven pieces write the fields, the eighth completes the hours and tests the time. -/
theorem mtcfullAssemblesTheTime : Obligations.MtcfullAssemblesTheTime := by
  intro hh mm ss ff r s hp hours ok
  change Host.Outcome.next (quarterPacket 7 (lastNibble hh r) _) = _
  rw [quarterPackets_fields, quarterPacket_eq, mtcPiece_lastPiece rfl, hp, mtcNext_lastPiece hh r rfl]

/-! ## Quadrature codes -/

section Transition

variable {ch : Fin Config.nCh} {now : Time} {s : State} {dir a : Int} {mult : Nat}

/-- A main encoder's event is APPLYSTEP on the current bank (41_bank_state.md R171). -/
theorem exec_applystep_eq_couple {bank : Fin Config.nBank} {delta : Int} (h : ch.val < 16)
    (hbank : bank = s.currentBank) (hdelta : (BitVec.ofInt 8 delta).toInt = delta) :
    exec (.applystep (BitVec.ofNat 8 ch.val) (BitVec.ofInt 8 delta) (BitVec.ofNat 8 bank.val)) s =
      .next (couple ch delta s) := by
  subst hbank
  have hlt := s.currentBank_lt
  change Host.Outcome.next (applyStep _ _ _ s) = _
  rw [toNat_ofNat8 (by omega), toNat_ofNat8 (by omega), hdelta, couple, if_pos h]

/-- A step is at most four detents either way, so it fits its operand. -/
theorem toInt_ofInt8_step (hmult : mult = 4 ∨ mult = 2 ∨ mult = 1) (a : Int) :
    (BitVec.ofInt 8 (a.sign * mult)).toInt = a.sign * mult := by
  have hsign : a.sign = 1 ∨ a.sign = 0 ∨ a.sign = -1 := a.sign_trichotomy
  rw [BitVec.toInt_ofInt, Int.bmod_eq_of_le]
  all_goals obtain rfl | rfl | rfl := hmult <;> omega

theorem quadNext_below {code : BitVec 4} {p : Config.Valued} {accelEn : Bool} {c : QChan} (hdir : dirOf code ≠ 0)
    (h : (c.acc.toInt + dirOf code).natAbs < threshold p (multiplier p accelEn (tdiff now c.tLast))) :
    quadNext p accelEn code now c =
      ({ phase := newPhase code, acc := BitVec.ofInt 8 (c.acc.toInt + dirOf code), tLast := now }, none) :=
  (if_neg hdir).trans (if_neg (Nat.not_le.mpr h))

theorem quadNext_reached {code : BitVec 4} {p : Config.Valued} {accelEn : Bool} {c : QChan} (hdir : dirOf code ≠ 0)
    (h : threshold p (multiplier p accelEn (tdiff now c.tLast)) ≤ (c.acc.toInt + dirOf code).natAbs) :
    quadNext p accelEn code now c =
      ({ phase := newPhase code, acc := 0, tLast := now },
        some ((c.acc.toInt + dirOf code).sign * multiplier p accelEn (tdiff now c.tLast))) :=
  (if_neg hdir).trans (if_pos h)

/-- Below the threshold a transition is accumulated (40_input_decoder.md R135, R136). -/
theorem transitionTo_below (ph : BitVec 2) (ha : a = (s.chan ch).acc.toInt + dir)
    (hmult : mult = multiplier Config.r9 s.accelEn (tdiff now (s.chan ch).tLast))
    (h : a.natAbs < 4 / mult) :
    transitionTo ch dir ph now s (s.setChan ch { phase := ph, acc := BitVec.ofInt 8 a, tLast := now }) := by
  subst ha hmult
  exact (if_pos h).mpr rfl

/-- At the threshold a transition is emitted, and the event of a main encoder applied (40_input_decoder.md R136, R138). -/
theorem transitionTo_reached (ph : BitVec 2) (ha : a = (s.chan ch).acc.toInt + dir)
    (hmult : mult = multiplier Config.r9 s.accelEn (tdiff now (s.chan ch).tLast))
    (h : 4 / mult ≤ a.natAbs) :
    transitionTo ch dir ph now s (couple ch (a.sign * mult)
      ((s.setChan ch { phase := ph, acc := 0, tLast := now }).emit (stepEvent ch (a.sign * mult)))) := by
  have hfour := hmult ▸ multiplier_cases _ _
  rw [multiplier_r9, tdiff] at hmult
  subst ha
  unfold transitionTo
  dsimp only
  rw [← hmult, if_neg (Nat.not_lt.mpr h)]
  by_cases hmain : ch.val < 16
  · rw [dif_pos hmain, stepEvent, dif_pos hmain]
    exact exec_applystep_eq_couple hmain rfl (toInt_ofInt8_step hfour _)
  · rw [dif_neg hmain, stepEvent, dif_neg hmain, couple, if_neg hmain]

/-- A code with a direction is one valid transition (40_input_decoder.md R131 to R138). -/
theorem sampleCode_transition (ch : Fin Config.nCh) (code : BitVec 4) (now : Time) (hp : s.cfg.valued = Config.r9)
    (hdir : dirOf code ≠ 0) : transitionTo ch (dirOf code) (newPhase code) now s (sampleCode ch code now s) := by
  unfold sampleCode
  obtain h | h := lt_or_ge ((s.chan ch).acc.toInt + dirOf code).natAbs
    (threshold Config.r9 (multiplier Config.r9 s.accelEn (tdiff now (s.chan ch).tLast)))
  · rw [hp, quadNext_below hdir h]
    exact transitionTo_below _ rfl rfl h
  · rw [hp, quadNext_reached hdir h]
    exact transitionTo_reached _ rfl rfl h

end Transition

/-- Settles O11: each row's code has a direction. -/
theorem qcodeRowsOfATransition : Obligations.QcodeRowsOfATransition := by
  intro ch now s hp
  have row := fun code => sampleCode_transition ch code now hp
  exact ⟨⟨_, rfl, row 0b0001 (by decide)⟩, ⟨_, rfl, row 0b0010 (by decide)⟩, ⟨_, rfl, row 0b0100 (by decide)⟩,
    ⟨_, rfl, row 0b0111 (by decide)⟩, ⟨_, rfl, row 0b1000 (by decide)⟩, ⟨_, rfl, row 0b1011 (by decide)⟩,
    ⟨_, rfl, row 0b1101 (by decide)⟩, ⟨_, rfl, row 0b1110 (by decide)⟩⟩

/-- A code of direction 0 moves the phase and nothing else (40_input_decoder.md R132). -/
theorem sampleCode_idle (ch : Fin Config.nCh) {code : BitVec 4} (now : Time) (s : State) (h : dirOf code = 0) :
    sampleCode ch code now s = s.setChan ch { s.chan ch with phase := newPhase code } := by
  rw [sampleCode, quadNext_idle _ _ _ _ _ h]

/-- Settles O10: each row's code has no direction. -/
theorem qcodeRowsWithoutTransition : Obligations.QcodeRowsWithoutTransition := by
  intro ch now s
  have row := fun (code : BitVec 4) (h : dirOf code = 0) =>
    congrArg (Host.Outcome.next : State → Result) (sampleCode_idle ch now s h)
  exact ⟨row 0b0000 rfl, row 0b0011 rfl, row 0b0101 rfl, row 0b0110 rfl, row 0b1001 rfl, row 0b1010 rfl,
    row 0b1100 rfl, row 0b1111 rfl⟩

/-- Settles O7, code by code. -/
theorem directionTable : Obligations.DirectionTable := by
  unfold Obligations.DirectionTable
  decide

/-- Settles O13: a turn is its four samples, by definition. -/
theorem turnsAreFourSamples : Obligations.TurnsAreFourSamples := fun _ _ _ _ => ⟨⟨_, rfl, rfl⟩, ⟨_, rfl, rfl⟩⟩

/-! ## Wire rows -/

/-- Settles O41: a row writes its message serialised. -/
theorem txRowsWriteTheirBytes : Obligations.TxRowsWriteTheirBytes := by
  intro s
  have row := fun {bytes own : List Byte} (h : bytes = own) => congrArg (fun b => (.next (s.tx b) : Result)) h
  exact ⟨fun c k v => row (serialise_controlChange c k v), fun c n v => row (serialise_noteOn c n v),
    fun c n v => row (serialise_noteOff c n v), fun c l m => row (serialise_pitchBend c l m), fun _ => rfl, fun _ => rfl⟩

/-! ## Frame and value rows -/

/-- Settles O55: a frame that is built is that frame. -/
theorem frameRows : Obligations.FrameRows := by
  intro track bank payload s received
  exact ⟨⟨_, rfl, rfl⟩, ⟨_, rfl, rfl⟩, ⟨_, rfl, rfl⟩, ⟨_, rfl, rfl⟩, ⟨_, rfl, rfl⟩, ⟨_, rfl, rfl⟩,
    fun _ => ⟨_, rfl, rfl⟩, fun _ => ⟨_, rfl, rfl⟩⟩

theorem exec_rgb565 (r : BitVec 5) (g : BitVec 6) (b : BitVec 5) (s : State) :
    exec (.rgb565 r g b) s = .next (s.ret (.rgb (r ++ 0#3) (g ++ 0#2) (b ++ 0#3))) := by
  obtain ⟨hr, hg, hb⟩ := extract_append_5_6_5 r g b
  change Host.Outcome.next (s.ret (.rgb (red565 (r ++ g ++ b)) (green565 (r ++ g ++ b)) (blue565 (r ++ g ++ b)))) = _
  rw [red565_eq, green565_eq, blue565_eq, hr, hg, hb]

/-- A transport byte is a frame of type 05, counted and acted on (43_inbound_sysex.md R254, 44_mtc_transport.md R291). -/
theorem exec_xport8 (b : Byte) {s : State} (hp : s.cfg.valued = Config.r9) :
    exec (.xport8 b) s = .next { s with sysexCount := s.sysexCount + 1, xp := transportOf s.cfg b } :=
  congrArg Host.Outcome.next (receiveFrame_known 0x05 0 0 [b] s hp (by decide) (by decide))

/-- Settles O22, row by row. -/
theorem valueFormatRows : Obligations.ValueFormatRows :=
  ⟨fun _ _ _ => ⟨⟨_, rfl, rfl⟩, ⟨_, rfl, rfl⟩⟩, exec_rgb565, fun b _ hp => exec_xport8 b hp⟩

/-- Settles O2, each transaction decoded. -/
theorem writtenWordsDecode : Obligations.WrittenWordsDecode := by
  unfold Obligations.WrittenWordsDecode
  decide

end Sys2Proof.Machine

/-! PROOFS. The family of 40_input_decoder.md: what one quadrature sample does to its channel and to the event stream, the
service of the main encoders, the gated polls and the navigation button. -/

namespace Sys2Proof.Machine

/-! ## One sample -/

@[simp] theorem newPhase_codeOf (last new : BitVec 2) : newPhase (codeOf last new) = new :=
  BitVec.extractLsb'_append_eq_right

theorem dirOf_positive {code : BitVec 4} (h : code ∈ positiveCodes) : dirOf code = 1 := directionTable.1 code h

theorem dirOf_negative {code : BitVec 4} (h : code ∈ negativeCodes) : dirOf code = -1 := directionTable.2.1 code h

theorem dirOf_idle {code : BitVec 4} (h : code ∈ idleCodes) : dirOf code = 0 := directionTable.2.2.1 code h

/-- Whatever the direction, the new phase is stored (40_input_decoder.md R133). -/
@[simp] theorem quadNext_phase (p : Config.Valued) (accelEn : Bool) (code : BitVec 4) (now : Time) (c : QChan) :
    (quadNext p accelEn code now c).1.phase = newPhase code := by
  unfold quadNext
  dsimp only
  split
  · rfl
  · split <;> rfl

/-- A threshold is at least 1, so an accumulator that reaches it has a sign (40_input_decoder.md R136). -/
theorem one_le_threshold (accelEn : Bool) (dt : Nat) : 1 ≤ threshold Config.r9 (multiplier Config.r9 accelEn dt) := by
  obtain h | h | h := multiplier_cases accelEn dt <;> rw [h] <;> decide

/-- An event has one of six steps (40_input_decoder.md R138). -/
theorem quadNext_step {accelEn : Bool} {code : BitVec 4} {now : Time} {c : QChan} {delta : Int}
    (h : (quadNext Config.r9 accelEn code now c).2 = some delta) : delta ∈ [(-4 : Int), -2, -1, 1, 2, 4] := by
  by_cases hdir : dirOf code = 0
  · simp [quadNext_idle _ _ _ _ _ hdir] at h
  obtain hlt | hle := lt_or_ge (c.acc.toInt + dirOf code).natAbs
    (threshold Config.r9 (multiplier Config.r9 accelEn (tdiff now c.tLast)))
  · simp [quadNext_below hdir hlt] at h
  · rw [quadNext_reached hdir hle] at h
    obtain rfl := Option.some.inj h
    have hpos := one_le_threshold accelEn (tdiff now c.tLast)
    have hsign : (c.acc.toInt + dirOf code).sign = 1 ∨ (c.acc.toInt + dirOf code).sign = -1 :=
      (lt_or_gt_of_ne (by omega)).symm.imp Int.sign_eq_one_of_pos Int.sign_eq_neg_one_of_neg
    obtain hs | hs := hsign <;> obtain hm | hm | hm := multiplier_cases accelEn (tdiff now c.tLast) <;>
      simp [hs, hm]

section Sample

variable (ch : Fin Config.nCh) (code : BitVec 4) (ph : BitVec 2) (now : Time) (s : State)

theorem exec_qsample : exec (.qsample ch ph now) s = .next (sample ch ph now s) := rfl

theorem sampleCode_chan (k : Fin Config.nCh) :
    (sampleCode ch code now s).chan k =
      if ch = k then (quadNext s.cfg.valued s.accelEn code now (s.chan ch)).1 else s.chan k := by
  rw [← State.chan_setChan, State.chan, sampleCode_q]
  rfl

@[simp] theorem couple_out (delta : Int) : (couple ch delta s).out = s.out := by
  unfold couple
  split
  · rw [applyStep_frame]
  · rfl

/-- The event stream grows by the channel's step event, if there is one; the coupling adds none. -/
theorem sampleCode_events :
    (sampleCode ch code now s).out.events =
      s.out.events ++ (quadNext s.cfg.valued s.accelEn code now (s.chan ch)).2.toList.map (stepEvent ch) := by
  unfold sampleCode
  split
  next h => simp [h]
  next h => simp [h]

@[simp] theorem sample_phase : ((sample ch ph now s).chan ch).phase = ph := by
  rw [sample, sampleCode_chan, if_pos rfl, quadNext_phase, newPhase_codeOf]

@[simp] theorem sample_cfg : (sample ch ph now s).cfg = s.cfg := by rw [sample, sampleCode_frame]

@[simp] theorem sample_accelEn : (sample ch ph now s).accelEn = s.accelEn := by rw [sample, sampleCode_frame]

end Sample

/-- Settles O8: the idle codes by the sample of direction 0, the phase by the frame of every sample. -/
theorem qsampleWithoutTransition : Obligations.QsampleWithoutTransition := by
  refine ⟨fun ch ph now s h => ?_, fun ch ph now s => ⟨_, rfl, sample_phase ch ph now s⟩⟩
  rw [exec_qsample, sample, sampleCode_idle ch now s (dirOf_idle h), newPhase_codeOf]

/-- A sample whose code has a direction is one valid transition to the sampled phase. -/
theorem sample_transition {ch : Fin Config.nCh} {ph : BitVec 2} {s : State} {dir : Int} (now : Time)
    (hp : s.cfg.valued = Config.r9) (hdir : dirOf (codeOf (s.chan ch).phase ph) = dir) (hne : dir ≠ 0) :
    transitionTo ch dir ph now s (sample ch ph now s) := by
  have h := sampleCode_transition ch _ now hp (hdir ▸ hne)
  rwa [hdir, newPhase_codeOf] at h

/-- Settles O9, for each direction. -/
theorem qsampleOfATransition : Obligations.QsampleOfATransition := fun _ _ now _ hp =>
  ⟨fun h => ⟨_, rfl, sample_transition now hp (dirOf_positive h) (by decide)⟩,
    fun h => ⟨_, rfl, sample_transition now hp (dirOf_negative h) (by decide)⟩⟩

/-- Settles O12: the sampled channel by the bound of one sample, the others by the frame, the event by its six steps. -/
theorem accumulatorBound : Obligations.AccumulatorBound := by
  refine ⟨by decide, fun ch k ph now s t hp h => ?_⟩
  rw [exec_qsample] at h
  obtain rfl := Host.Outcome.next.inj h
  rw [sample, sampleCode_events, sampleCode_chan, hp]
  constructor
  · intro hk
    split
    next heq =>
      subst heq
      obtain hsame | hbound := quadNext_acc s.accelEn (codeOf (s.chan ch).phase ph) now (s.chan ch)
      · rwa [hsame]
      · exact hbound
    next => exact hk
  · cases hstep : (quadNext Config.r9 s.accelEn (codeOf (s.chan ch).phase ph) now (s.chan ch)).2 with
    | none => exact .inl (List.append_nil _)
    | some delta => exact .inr ⟨delta, quadNext_step hstep, rfl⟩

/-! ## Runs of transitions with acceleration off -/

theorem multiplier_off (dt : Nat) : multiplier Config.r9 false dt = 1 := by simp [multiplier_r9]

/-- With acceleration off the accumulator counts the transitions of one direction modulo 4, and the fourth is the event
(40_input_decoder.md R139). -/
theorem quadNext_off {code : BitVec 4} {c : QChan} {dir : Int} {k : Nat} (now : Time) (hunit : dir = 1 ∨ dir = -1)
    (hdir : dirOf code = dir) (hk : k < 4) (hacc : c.acc.toInt = dir * k) :
    (quadNext Config.r9 false code now c).1.acc.toInt = dir * ((k + 1) % 4 : Nat) ∧
      (quadNext Config.r9 false code now c).2.toList = List.replicate ((k + 1) / 4) dir := by
  have hne : dirOf code ≠ 0 := by omega
  have hsum : c.acc.toInt + dirOf code = dir * (k + 1 : Nat) := by rw [hacc, hdir]; push_cast; ring
  have habs : (c.acc.toInt + dirOf code).natAbs = k + 1 := by
    rw [hsum]
    obtain rfl | rfl := hunit <;> omega
  have hfour : threshold Config.r9 (multiplier Config.r9 false (tdiff now c.tLast)) = 4 := by
    rw [multiplier_off]; rfl
  obtain hlt | rfl : k + 1 < 4 ∨ k = 3 := by omega
  · rw [quadNext_below hne (by omega)]
    dsimp only
    rw [ofInt8_toInt (by omega), hsum, Nat.mod_eq_of_lt hlt, Nat.div_eq_of_lt hlt]
    exact ⟨rfl, rfl⟩
  · rw [quadNext_reached hne (by omega), hsum, multiplier_off]
    obtain rfl | rfl := hunit <;> exact ⟨rfl, rfl⟩

/-- A run of QSAMPLEs of one direction, from an accumulator that already holds `k` transitions of it: one event for every
four, whatever the times, and the rest stay in the accumulator (40_input_decoder.md R139; 90_conflicts.md C1). -/
theorem execAll_oneWay {codes : List (BitVec 4)} {dir : Int} (hunit : dir = 1 ∨ dir = -1)
    (hcodes : ∀ {code}, code ∈ codes → dirOf code = dir) (ch : Fin Config.nCh) (ps : List (BitVec 2 × Time)) {k : Nat}
    {s : State} (hp : s.cfg.valued = Config.r9) (hoff : s.accelEn = false) (hk : k < 4)
    (hacc : (s.chan ch).acc.toInt = dir * k) (hway : oneWay codes (s.chan ch).phase ps) :
    ∃ t, execAll (ps.map fun p => .qsample ch p.1 p.2) s = .next t ∧
      t.out.events = s.out.events ++ List.replicate ((k + ps.length) / 4) (stepEvent ch dir) ∧
      (t.chan ch).acc.toInt = dir * ((k + ps.length) % 4 : Nat) := by
  induction ps generalizing k s with
  | nil =>
    refine ⟨s, rfl, ?_, ?_⟩
    · simp [Nat.div_eq_of_lt hk]
    · simpa [Nat.mod_eq_of_lt hk] using hacc
  | cons p rest ih =>
    obtain ⟨ph, now⟩ := p
    obtain ⟨hcode, hrest⟩ := hway
    obtain ⟨hacc', hstep⟩ := quadNext_off now hunit (hcodes hcode) hk hacc
    have hchan : ((sample ch ph now s).chan ch).acc.toInt = dir * ((k + 1) % 4 : Nat) := by
      rw [sample, sampleCode_chan, if_pos rfl, hp, hoff, hacc']
    have hevents : (sample ch ph now s).out.events =
        s.out.events ++ List.replicate ((k + 1) / 4) (stepEvent ch dir) := by
      rw [sample, sampleCode_events, hp, hoff, hstep, List.map_replicate]
    obtain ⟨t, hrun, hev, ha⟩ := ih (s := sample ch ph now s) (by simpa using hp) (by simpa using hoff)
      (Nat.mod_lt _ (by decide)) hchan (by simpa using hrest)
    have hdiv : (k + 1) / 4 + ((k + 1) % 4 + rest.length) / 4 = (k + (rest.length + 1)) / 4 := by omega
    have hmod : ((k + 1) % 4 + rest.length) % 4 = (k + (rest.length + 1)) % 4 := by omega
    refine ⟨t, hrun, ?_, ?_⟩
    · rw [hev, hevents, List.append_assoc, List.replicate_append_replicate, hdiv, List.length_cons]
    · rw [ha, hmod, List.length_cons]

/-- Settles O14, for each direction from an accumulator that holds no transition. -/
theorem accelerationOffOneEventPerCycle : Obligations.AccelerationOffOneEventPerCycle := by
  constructor <;> intro ch ps s hp hoff hacc hway
  · simpa using execAll_oneWay (.inl rfl) dirOf_positive ch ps hp hoff (k := 0) (by decide) (by simp [hacc]) hway
  · simpa using execAll_oneWay (.inr rfl) dirOf_negative ch ps hp hoff (k := 0) (by decide) (by simp [hacc]) hway

/-- Settles O15. -/
theorem setaccelWritesTheEnable : Obligations.SetaccelWritesTheEnable := fun _ _ => rfl

/-! ## Flags and the service of the main encoders -/

/-- A flag that is set exists. -/
theorem lt_length_of_set {k : Nat} {s : State} (h : s.ready.getD k false = true) : k < s.ready.length := by
  by_contra hge
  rw [List.getD_eq_default _ _ (Nat.not_lt.mp hge)] at h
  exact Bool.false_ne_true h

/-- Edges are not counted (40_input_decoder.md R144). -/
theorem setFlag_of_set {k : Nat} {s : State} (h : s.ready.getD k false = true) : setFlag k s = s := by
  rw [List.getD_eq_getElem _ _ (lt_length_of_set h)] at h
  rw [setFlag, ← h, List.set_getElem_self]

/-- Settles O16. -/
theorem flagOperations : Obligations.FlagOperations :=
  ⟨fun _ _ hk => if_pos hk,
    fun _ _ hset => (if_pos (lt_length_of_set hset)).trans (congrArg _ (setFlag_of_set hset)),
    fun _ _ hk => if_pos hk⟩

/-- Step 2 of a service is the run of its QSAMPLEs (40_input_decoder.md R146). -/
theorem serviceRun_serviceChannels (v : Service) (is : List (Fin Config.nMain)) (s : State) :
    serviceRun v is s (serviceChannels v is s) := by
  induction is generalizing s with
  | nil => rfl
  | cons i rest ih =>
    refine ⟨if s.cfg.halfOf[i.val] = v.half then sample (mainChannel i) v.ph[i.val] v.now s else s, ?_, ih _⟩
    split <;> rfl

/-- With no reset and no edge due, a step is the next step of the service in progress (40_input_decoder.md R146). -/
theorem step_of_service {v : Service} {s : State} (hrst : s.inp.rst = 0)
    (hlater : ∀ e es, s.inp.irq = e :: es → e.after ≠ 0) (hsvc : s.svc = some v) :
    step s = .next (serviceStep v { s with inp := { s.inp with irq := tickEdges s.inp.irq } }) := by
  rw [step_of_no_edge hrst hlater]
  exact sequencerStep_of_service hsvc

/-- Settles O17: step 1 by the test of the flag, steps 2 and 3 as the next steps of the service. -/
theorem encserviceRunsInThreeSteps : Obligations.EncserviceRunsInThreeSteps := by
  refine ⟨fun k ph now s hk hclear => ?_, fun k ph now s hk hset => ?_,
    fun v s hrst hlater hsvc hstage => ⟨_, serviceRun_serviceChannels v mainIndices _, ?_⟩,
    fun v s hrst hlater hsvc hstage => ?_⟩
  · exact (if_pos hk).trans (if_neg (by rw [flagIsSet, hclear]; decide))
  · exact (if_pos hk).trans (if_pos hset)
  · rw [step_of_service hrst hlater hsvc, serviceStep, hstage]
  · rw [step_of_service hrst hlater hsvc, serviceStep, hstage]
    rfl

/-! ## Switches and buttons -/

/-- A press is a bit that was 1 and is 0 (40_input_decoder.md R150). -/
theorem pressed_eq (old new : BitVec 16) (i : Nat) : pressed old new i = (old.getLsbD i && !new.getLsbD i) := by
  rw [pressed, BitVec.getLsbD_xor]
  cases old.getLsbD i <;> cases new.getLsbD i <;> rfl

theorem exec_applysw_eq_applySw (i : Fin Config.nSw) (bank : Fin Config.nBank) (s : State) :
    exec (.applysw (BitVec.ofNat 8 i.val) (BitVec.ofNat 8 bank.val)) s = .next (applySw i.val bank.val s) := by
  change Host.Outcome.next (applySw _ _ s) = _
  rw [toNat_ofNat8 (Nat.lt_trans i.isLt (by decide)), toNat_ofNat8 (Nat.lt_trans bank.isLt (by decide))]

/-- The presses of a snapshot are the run of their events and APPLYSWs (40_input_decoder.md R150). -/
theorem pressRun_switchPresses (old new : BitVec 16) (is : List (Fin Config.nSw)) (s : State) :
    pressRun old new is s (switchPresses old new is s) := by
  induction is generalizing s with
  | nil => rfl
  | cons i rest ih =>
    refine ⟨if pressed old new i.val then applySw i.val s.currentBank.val (s.emit (.switchChanged i)) else s, ?_, ih _⟩
    have hpress : pressed old new i.val = true ↔ old.getLsbD i.val = true ∧ new.getLsbD i.val = false := by
      simp [pressed_eq]
    by_cases h : pressed old new i.val = true
    · rw [if_pos (hpress.mp h), if_pos h, exec_applysw_eq_applySw]
    · rw [if_neg (mt hpress.mpr h), if_neg h]

section Polls

variable {snap : BitVec 16} {now : Time} {s : State} (hp : s.cfg.valued = Config.r9)

include hp

/-- The gate of the two ports with the numbers of 00_scope.md R9 (40_input_decoder.md R151). -/
theorem gate_iff (tPoll : Time) : tdiff now tPoll < s.cfg.valued.tDeb ↔ (now - tPoll).toNat < 50 := by rw [hp]; rfl

/-- A SWPOLL within the gate does nothing (40_input_decoder.md R151). -/
theorem switchPoll_rejected (h : (now - s.sw.tPoll).toNat < 50) : switchPoll snap now s = s :=
  if_pos ((gate_iff hp _).mpr h)

/-- An accepted SWPOLL runs its presses and stores snapshot and time (40_input_decoder.md R150, R152). -/
theorem switchPoll_accepted (h : 50 ≤ (now - s.sw.tPoll).toNat) :
    switchPoll snap now s =
      { switchPresses s.sw.snap snap switchIndices { s with sw := { s.sw with tPoll := now } } with
        sw := { snap := snap, tPoll := now } } := by
  rw [switchPoll, if_neg (mt (gate_iff hp _).mp (Nat.not_lt.mpr h)), switchPresses_frame]

/-- A BTNPOLL within its own gate does nothing (40_input_decoder.md R153). -/
theorem buttonPoll_rejected (h : (now - s.btn.tPoll).toNat < 50) : buttonPoll snap now s = s :=
  if_pos ((gate_iff hp _).mpr h)

/-- An accepted BTNPOLL appends its events and stores snapshot and time (40_input_decoder.md R153). -/
theorem buttonPoll_accepted (h : 50 ≤ (now - s.btn.tPoll).toNat) :
    buttonPoll snap now s =
      { s with
        btn := { snap := snap, tPoll := now }
        out := { s.out with events := s.out.events ++
          (buttonIndices.filter fun i => s.btn.snap.getLsbD i.val && !snap.getLsbD i.val).map Event.buttonChanged } } := by
  rw [buttonPoll, if_neg (mt (gate_iff hp _).mp (Nat.not_lt.mpr h)), buttonPresses_eq]
  simp only [pressed_eq]

end Polls

/-- Settles O20. -/
theorem swpollAccepted : Obligations.SwpollAccepted :=
  ⟨fun _ _ _ hp h => congrArg _ (switchPoll_rejected hp h),
    fun _ _ _ hp h => ⟨_, pressRun_switchPresses _ _ _ _, congrArg _ (switchPoll_accepted hp h)⟩⟩

/-- Settles O19: what an accepted poll stores. -/
theorem swpollGate : Obligations.SwpollGate :=
  ⟨fun _ _ _ hp h => congrArg _ (switchPoll_rejected hp h),
    fun _ _ _ hp h => ⟨_, rfl, by rw [switchPoll_accepted hp h]⟩⟩

/-- Settles O21: the buttons in ascending order are the bits 0 to 4. -/
theorem btnpollGateAndEvents : Obligations.BtnpollGateAndEvents :=
  ⟨fun _ _ _ hp h => congrArg _ (buttonPoll_rejected hp h),
    fun _ _ _ hp h => congrArg _ (buttonPoll_accepted hp h)⟩

/-! ## Navigation encoder and button -/

/-- Settles O23: the two sides of the gate. -/
theorem navencIsAGatedSample : Obligations.NavencIsAGatedSample := by
  refine ⟨fun ph now s hp h => if_pos ?_, fun ph now s hp h => ⟨_, if_neg ?_, rfl⟩⟩
  · rw [hp]; exact h
  · rw [hp]; exact Nat.not_lt.mpr h

/-- A level that holds through the window is accepted, and a low one is a press (40_input_decoder.md R160). -/
theorem execNavbtn_accepted {now : Time} {s : State} (hp : s.cfg.valued = Config.r9) (hne : s.nb.raw ≠ s.nb.stable)
    (h : 50 ≤ (now - s.nb.tChange).toNat) :
    execNavbtn s.nb.raw now s =
      .next { s with
        nb := { s.nb with stable := s.nb.raw }
        out := { s.out with events := s.out.events ++ (if s.nb.raw then [] else [Event.navButtonPressed]) } } := by
  have hwindow : s.nb.raw ≠ s.nb.stable ∧ s.cfg.valued.tNavBtn ≤ tdiff now s.nb.tChange := ⟨hne, by rw [hp]; exact h⟩
  rw [execNavbtn, if_neg (not_not.mpr rfl), if_pos hwindow]
  cases s.nb.raw with
  | true => simp
  | false => rfl

/-- Settles O24: a change, a level accepted, and neither. -/
theorem navbtnConfirmsAPress : Obligations.NavbtnConfirmsAPress := by
  intro lvl now s hp
  refine ⟨fun hchange => if_pos hchange, ?_, ?_⟩
  · rintro rfl hne h
    exact execNavbtn_accepted hp hne h
  · rintro rfl hquiet
    have hwindow : ¬(s.nb.raw ≠ s.nb.stable ∧ s.cfg.valued.tNavBtn ≤ tdiff now s.nb.tChange) := by
      rintro ⟨hne, hle⟩
      rw [hp] at hle
      exact hquiet.elim hne (Nat.not_lt.mpr hle)
    exact (if_neg (not_not.mpr rfl)).trans (if_neg hwindow)

end Sys2Proof.Machine

/-! PROOFS. The family of 41_bank_state.md: the operations on the bank table, each at a slot in range; CFGWRITE edit by
edit; the blob; and the output streams, which every instruction and every step only extend. -/

namespace Sys2Proof.Machine

/-! ## Operands in the bank table -/

section InTable

variable (b : Fin Config.nBank) (k : Fin Config.nTrack) (s : State)

@[simp] theorem bank_mod_256 : b.val % 256 = b.val := Nat.mod_eq_of_lt (Nat.lt_trans b.isLt (by decide))

@[simp] theorem track_mod_256 : k.val % 256 = k.val := Nat.mod_eq_of_lt (Nat.lt_trans k.isLt (by decide))

theorem exec_setbank_at : exec (.setbank (BitVec.ofNat 8 b.val)) s = .next { s with currentBank := b } := by
  simp [exec, execSetbank]

theorem exec_resetslot_at :
    exec (.resetslot (BitVec.ofNat 8 b.val) (BitVec.ofNat 8 k.val)) s =
      .next (s.setSlot b k (s.cfg.defaults.at b k)) := by
  simp [exec, execResetslot]

theorem exec_slotread_at :
    exec (.slotread (BitVec.ofNat 8 b.val) (BitVec.ofNat 8 k.val)) s = .next (s.ret (.slot (some (s.slot b k)))) := by
  simp [exec, execSlotread]

theorem exec_dawsync_at (value : Option Byte) (color : Option (BitVec 16)) (name : Option (List Byte)) :
    exec (.dawsync (BitVec.ofNat 8 k.val) (BitVec.ofNat 8 b.val) value color name) s =
      .next (dawSyncAt b k value color name s) := by
  simp [exec, execDawsync, dawSync]

theorem exec_applystep_at {index bank : Byte} (delta : BitVec 8) (hi : index.toNat < 16) (hb : bank.toNat < 4) :
    exec (.applystep index delta bank) s = .next (applyStepAt ⟨bank.toNat, hb⟩ ⟨index.toNat, hi⟩ delta.toInt s) :=
  congrArg _ (dif_pos ⟨hi, hb⟩)

end InTable

/-- Settles O30. -/
theorem setbankSwitchesTheWindow : Obligations.SetbankSwitchesTheWindow :=
  ⟨exec_setbank_at, fun _ s => execSetbank_out_of_range s⟩

/-- Settles O31: RESETALL takes the whole table of compiled-in slots. -/
theorem resetsRestoreTheDefaults : Obligations.ResetsRestoreTheDefaults :=
  ⟨exec_resetslot_at, fun _ _ s h => execResetslot_out_of_range s (by omega),
    fun _ => ⟨_, rfl, fun _ _ => rfl, rfl⟩⟩

/-! ## APPLYSTEP and APPLYSW -/

theorem clamp_eq_max_min {v lo hi : Int} (h : lo ≤ hi) : clamp v lo hi = max lo (min hi v) := by
  unfold clamp
  split
  · omega
  · split <;> omega

/-- The clamped value is the spec's, when the bounds are in order (41_bank_state.md R172, R182). -/
theorem clampToSlot_eq_max_min {x : Slot} (v : Int) (h : x.minValue.toNat ≤ x.maxValue.toNat) :
    ((clampToSlot x v).toNat : Int) = max (x.minValue.toNat : Int) (min x.maxValue.toNat v) :=
  (clampToSlot_toNat x v h).trans (clamp_eq_max_min (Int.ofNat_le.mpr h))

/-! The message of a slot stepped to `v`, for each control type (41_bank_state.md R173 to R175). -/

section StepMessage

variable {x : Slot} {v : BitVec 7} {delta : Int} (vel : BitVec 7)

theorem stepMessage_cc (h : x.controlType = .cc) :
    stepMessage vel { x with localValue := v } delta = .controlChange x.channelNo x.controlNumber.toNat v.toNat := by
  simp only [stepMessage, h, Slot.channelNo]

theorem stepMessage_note_on (h : x.controlType = .note) (hdelta : 0 < delta) :
    stepMessage vel { x with localValue := v } delta = .noteOn x.channelNo x.controlNumber.toNat vel.toNat := by
  simp only [stepMessage, h, Slot.channelNo]
  exact if_pos hdelta

theorem stepMessage_note_off (h : x.controlType = .note) (hdelta : delta ≤ 0) :
    stepMessage vel { x with localValue := v } delta = .noteOff x.channelNo x.controlNumber.toNat 0 := by
  simp only [stepMessage, h, Slot.channelNo]
  exact if_neg (Int.not_lt.mpr hdelta)

theorem stepMessage_pitchBend (h : x.controlType = .pitchBend) :
    stepMessage vel { x with localValue := v } delta = .pitchBend x.channelNo (129 * (v.toNat : Int) - 8192) := by
  simp only [stepMessage, h, Slot.channelNo, bendOf]

end StepMessage

/-- Under the capacity of 00_scope.md R9 an enqueue is the message handed to ENQ. -/
theorem enqueue_eq_afterEnq (m : Msg) {s : State} (hp : s.cfg.valued = Config.r9) : enqueue m s = afterEnq m s :=
  enqueue_r9 m s hp

@[simp] theorem enqueue_slot (m : Msg) (s : State) (b : Fin Config.nBank) (k : Fin Config.nTrack) :
    (enqueue m s).slot b k = s.slot b k := by
  rw [enqueue_frame]
  rfl

/-- The stepped slot holds the clamped sum, and its other fields (41_bank_state.md R172). -/
theorem applyStepAt_slot (b : Fin Config.nBank) (k : Fin Config.nTrack) (delta : Int) (s : State) :
    (applyStepAt b k delta s).slot b k =
      { s.slot b k with localValue := clampToSlot (s.slot b k) ((s.slot b k).localValue.toNat + delta) } := by
  simp [applyStepAt]

/-- Settles O25: the value is the clamped sum, the message that of the control type. -/
theorem applystepStepsAndSends : Obligations.ApplystepStepsAndSends := by
  refine ⟨fun index delta bank s h => congrArg _ (applyStep_out_of_range _ _ _ s (by omega)),
    fun index delta bank s hi hb hp hord => ?_⟩
  refine ⟨_, _, ?value, ?cc, ?noteOn, ?noteOff, ?pitchBend,
    (exec_applystep_at s delta hi hb).trans (congrArg _ (enqueue_eq_afterEnq _ hp))⟩
  case value => exact clampToSlot_eq_max_min _ hord
  case cc => exact stepMessage_cc _
  case noteOn => exact stepMessage_note_on _
  case noteOff => exact stepMessage_note_off _
  case pitchBend => exact stepMessage_pitchBend _

/-- Settles O26: the stepped slot holds a clamped value, under the bounds it had. -/
theorem applystepStaysInBounds : Obligations.ApplystepStaysInBounds := by
  intro index delta bank s hi hb hord
  refine ⟨_, exec_applystep_at s delta hi hb, ?_⟩
  rw [applyStepAt_slot]
  exact clampToSlot_bounds _ _ hord

theorem onOff_not (v : Bool) : onOff (!v) = if v then 0 else 127 := by cases v <;> rfl

theorem applySw_mute (t : Fin 8) (b : Fin 4) (s : State) :
    applySw t.val b.val s = toggleMute b (⟨t.val, by omega⟩ : Fin 16) s :=
  (dif_pos ⟨Nat.lt_trans t.isLt (by decide), b.isLt⟩).trans (if_pos t.isLt)

theorem applySw_solo (t : Fin 8) (b : Fin 4) (s : State) :
    applySw (8 + t.val) b.val s = toggleSolo b (⟨t.val, by omega⟩ : Fin 16) s := by
  have hsw : 8 + t.val < 16 := by omega
  refine (dif_pos ⟨hsw, b.isLt⟩).trans ((if_neg (by omega)).trans ?_)
  congr
  omega

/-- Settles O27: each half of the switches by its toggle. -/
theorem applyswToggles : Obligations.ApplyswToggles := by
  refine ⟨fun sw bank s h => congrArg _ (applySw_out_of_range _ _ s (by omega)), fun t b s hp => ?_, fun t b s hp => ?_⟩
  · rw [exec_applysw_eq_applySw (⟨t.val, by omega⟩ : Fin 16) b s, applySw_mute, toggleMute, onOff_not]
    exact congrArg _ (enqueue_eq_afterEnq _ hp)
  · rw [exec_applysw_eq_applySw (⟨8 + t.val, by omega⟩ : Fin 16) b s, applySw_solo, toggleSolo, onOff_not]
    exact congrArg _ (enqueue_eq_afterEnq _ hp)

/-! ## DAWSYNC -/

/-- A mirror replaces the local value: by the value present, clamped, else by itself (41_bank_state.md R182). -/
theorem exists_mirrorSlot_eq {x : Slot} (value : Option Byte) (h : x.minValue.toNat ≤ x.maxValue.toNat) :
    ∃ v : BitVec 7, (value = none → v = x.localValue) ∧
      (∀ w, value = some w → (v.toNat : Int) = max (x.minValue.toNat : Int) (min x.maxValue.toNat w.toNat)) ∧
      mirrorSlot x value = { x with localValue := v } := by
  cases value with
  | none => exact ⟨x.localValue, fun _ => rfl, nofun, rfl⟩
  | some w =>
    refine ⟨clampToSlot x w.toNat, nofun, ?_, rfl⟩
    rintro _ ⟨⟩
    exact clampToSlot_eq_max_min _ h

/-- Settles O29: the fields stored are those of any bank; the current bank adds the mirror and its Dirty. -/
theorem dawsyncStoresAndMirrors : Obligations.DawsyncStoresAndMirrors := by
  refine ⟨fun track bank value color name s h => congrArg _ (dawSync_out_of_range _ _ value color name s (by omega)),
    fun b k value color name s hp hord => ?_⟩
  have hname : s.cfg.valued.nameVis = 4 := by rw [hp, Config.r9_nameVis]
  simp only [exec_dawsync_at, dawSyncAt, hname]
  refine ⟨fun hother => congrArg _ (if_neg hother), fun hcurrent => ?_⟩
  obtain ⟨v, hkept, hclamped, hmirror⟩ := exists_mirrorSlot_eq (x := syncSlot 4 (s.slot b k) value color name) value hord
  refine ⟨v, hkept, hclamped, ?_⟩
  rw [if_pos hcurrent, hmirror]
  rfl

/-! ## CFGWRITE -/

/-- The edits of a seven-bit field: a value in range is the number of exactly one word. -/
theorem sevenBit_eq_some_iff {f : BitVec 7 → Slot} {v : Nat} {y : Slot} :
    (if v ≤ 127 then some (f (BitVec.ofNat 7 v)) else none) = some y ↔ ∃ w : BitVec 7, w.toNat = v ∧ f w = y := by
  rw [Option.ite_none_right_eq_some, Option.some.injEq]
  constructor
  · rintro ⟨hle, rfl⟩
    exact ⟨_, (BitVec.toNat_ofNat v 7).trans (Nat.mod_eq_of_lt (Nat.lt_succ_of_le hle)), rfl⟩
  · rintro ⟨w, rfl, rfl⟩
    exact ⟨Nat.le_of_lt_succ w.isLt, by rw [BitVec.ofNat_toNat, BitVec.setWidth_eq]⟩

section Edits

variable {n v : Nat} {x y : Slot}

theorem editSlot_channel_iff :
    editSlot n x (.channel v) = some y ↔ ∃ c : Fin 16, c.val + 1 = v ∧ { x with channel := c } = y := by
  simp only [editSlot, Option.dite_none_right_eq_some, Option.some.injEq]
  constructor
  · rintro ⟨⟨hlo, -⟩, rfl⟩
    exact ⟨_, Nat.sub_add_cancel hlo, rfl⟩
  · rintro ⟨c, rfl, rfl⟩
    exact ⟨⟨Nat.succ_pos _, c.isLt⟩, rfl⟩

theorem editSlot_controlNumber_iff :
    editSlot n x (.controlNumber v) = some y ↔ ∃ w : BitVec 7, w.toNat = v ∧ { x with controlNumber := w } = y :=
  sevenBit_eq_some_iff (f := fun w => { x with controlNumber := w })

theorem editSlot_localValue_iff :
    editSlot n x (.localValue v) = some y ↔ ∃ w : BitVec 7, w.toNat = v ∧ { x with localValue := w } = y :=
  sevenBit_eq_some_iff (f := fun w => { x with localValue := w })

theorem editSlot_minValue_iff :
    editSlot n x (.minValue v) = some y ↔ ∃ w : BitVec 7, w.toNat = v ∧ { x with minValue := w } = y :=
  sevenBit_eq_some_iff (f := fun w => { x with minValue := w })

theorem editSlot_maxValue_iff :
    editSlot n x (.maxValue v) = some y ↔ ∃ w : BitVec 7, w.toNat = v ∧ { x with maxValue := w } = y :=
  sevenBit_eq_some_iff (f := fun w => { x with maxValue := w })

theorem editSlot_trackName_iff {name : List Byte} :
    editSlot n x (.trackName name) = some y ↔ name.length ≤ n ∧ { x with trackName := name } = y := by
  rw [editSlot, Option.ite_none_right_eq_some, Option.some.injEq]

end Edits

section Cfgwrite

variable {b : Fin Config.nBank} {k : Fin Config.nTrack} {s : State} {edit : CfgEdit}

/-- An edit in range that leaves the slot legal is written (41_bank_state.md R191). -/
theorem exec_cfgwrite_written {y : Slot} (hp : s.cfg.valued = Config.r9)
    (hedit : editSlot 4 (s.slot b k) edit = some y) (hwf : y.wf 4) :
    exec (.cfgwrite (BitVec.ofNat 8 b.val) (BitVec.ofNat 8 k.val) edit) s = .next (s.setSlot b k y) := by
  simp [exec, execCfgwrite, hp, hedit, (slotOk_iff 4 y).mpr hwf]

/-- An edit that gives no legal slot is refused (41_bank_state.md R192). -/
theorem exec_cfgwrite_refused (hp : s.cfg.valued = Config.r9)
    (hbad : ∀ y, editSlot 4 (s.slot b k) edit = some y → ¬y.wf 4) :
    exec (.cfgwrite (BitVec.ofNat 8 b.val) (BitVec.ofNat 8 k.val) edit) s = .refused .editBreaksSlot := by
  cases hedit : editSlot 4 (s.slot b k) edit with
  | none => simp [exec, execCfgwrite, hp, hedit]
  | some y => simp [exec, execCfgwrite, hp, hedit, mt (slotOk_iff 4 y).mp (hbad y hedit)]

end Cfgwrite

/-- Settles O33: the nine fields the slot invariant does not read keep it, the three bounded values by their bounds. -/
theorem cfgwriteWritesOneField : Obligations.CfgwriteWritesOneField := by
  intro b k s hp hwf
  have ⟨hlo, hhi, hname⟩ := hwf
  exact ⟨
    fun v => exec_cfgwrite_written hp (editSlot_channel_iff.mpr ⟨v, rfl, rfl⟩) hwf,
    fun v => exec_cfgwrite_written hp (editSlot_controlNumber_iff.mpr ⟨v, rfl, rfl⟩) hwf,
    fun v => exec_cfgwrite_written hp rfl hwf,
    fun v => exec_cfgwrite_written hp rfl hwf,
    fun v hv hv' => exec_cfgwrite_written hp (editSlot_localValue_iff.mpr ⟨v, rfl, rfl⟩) ⟨hv, hv', hname⟩,
    fun v hv => exec_cfgwrite_written hp (editSlot_minValue_iff.mpr ⟨v, rfl, rfl⟩) ⟨hv, hhi, hname⟩,
    fun v hv => exec_cfgwrite_written hp (editSlot_maxValue_iff.mpr ⟨v, rfl, rfl⟩) ⟨hlo, hv, hname⟩,
    fun v => exec_cfgwrite_written hp rfl hwf,
    fun v => exec_cfgwrite_written hp rfl hwf,
    fun v => exec_cfgwrite_written hp rfl hwf,
    fun v => exec_cfgwrite_written hp rfl hwf,
    fun v hv => exec_cfgwrite_written hp (editSlot_trackName_iff.mpr ⟨hv, rfl⟩) ⟨hlo, hhi, hv⟩⟩

/-- Settles O34: a value out of range is the number of no word, and a bounded value out of order breaks the slot. -/
theorem cfgwriteRefusesBadEdits : Obligations.CfgwriteRefusesBadEdits := by
  refine ⟨fun bank track edit s h => execCfgwrite_out_of_range s edit (by omega), fun b k s hp => ?_⟩
  refine ⟨fun v hv => exec_cfgwrite_refused hp ?channel, fun v hv => exec_cfgwrite_refused hp ?controlNumber,
    fun v hv => exec_cfgwrite_refused hp ?localValue, fun v hv => exec_cfgwrite_refused hp ?minValue,
    fun v hv => exec_cfgwrite_refused hp ?maxValue, fun v hv => exec_cfgwrite_refused hp ?trackName⟩
  all_goals intro y hedit
  case channel =>
    obtain ⟨c, rfl, -⟩ := editSlot_channel_iff.mp hedit
    omega
  case controlNumber =>
    obtain ⟨w, rfl, -⟩ := editSlot_controlNumber_iff.mp hedit
    omega
  case localValue =>
    obtain ⟨w, rfl, rfl⟩ := editSlot_localValue_iff.mp hedit
    rintro ⟨hlo, hhi, -⟩
    dsimp only at hlo hhi
    omega
  case minValue =>
    obtain ⟨w, rfl, rfl⟩ := editSlot_minValue_iff.mp hedit
    rintro ⟨hlo, -, -⟩
    dsimp only at hlo
    omega
  case maxValue =>
    obtain ⟨w, rfl, rfl⟩ := editSlot_maxValue_iff.mp hedit
    rintro ⟨-, hhi, -⟩
    dsimp only at hhi
    omega
  case trackName =>
    obtain ⟨hle, -⟩ := editSlot_trackName_iff.mp hedit
    omega

/-! ## The blob -/

/-- A legal slot is not repaired. -/
theorem legalSlot_of_wf {n : Nat} {x : Slot} (h : x.wf n) : legalSlot n x = x := by
  obtain ⟨hlo, hhi, hname⟩ := h
  have hclamp : clamp x.localValue.toNat x.minValue.toNat x.maxValue.toNat = x.localValue.toNat := by
    rw [clamp_eq_max_min (by omega)]
    omega
  simp only [legalSlot, if_pos (hlo.trans hhi), hclamp, BitVec.ofInt_natCast, BitVec.ofNat_toNat, BitVec.setWidth_eq,
    List.take_of_length_le hname]

theorem slotTable_ext {x y : SlotTable} (h : ∀ b k, x.at b k = y.at b k) : x = y :=
  Vector.ext fun b hb => Vector.ext fun k hk => h ⟨b, hb⟩ ⟨k, hk⟩

theorem legalTable_of_wf {n : Nat} {x : SlotTable} (h : ∀ b k, (x.at b k).wf n) : legalTable n x = x :=
  slotTable_ext fun b k => (legalTable_at n x b k).trans (legalSlot_of_wf (h b k))

/-- Settles O35: the last clause by the law of the pair, and because a legal table is not repaired. -/
theorem serializeAndDeserializeRun : Obligations.SerializeAndDeserializeRun := by
  refine ⟨fun s => rfl, fun blob s => ⟨_, rfl, rfl, fun b k => ?_⟩, fun n x => legalSlot_of_wf,
    fun s u hwf => ⟨_, rfl, ?_⟩⟩
  · have hslot := legalTable_at s.cfg.valued.nameVis (Config.savedOf blob).slots b k
    exact ⟨hslot.symm.subst (wf_legalSlot _ _), hslot⟩
  · change execDeserialize _ u = _
    rw [execDeserialize, Config.savedOf_blobOf, legalTable_of_wf hwf]

/-! ## Nothing put out is taken back -/

section Keeping

variable {s t u : State}

theorem keeps_of_same (hout : t.out = s.out) (hcfg : t.cfg = s.cfg) (hready : t.ready.length = s.ready.length) :
    Keeps s t where
  events := hout ▸ ⟨[], List.append_nil _⟩
  wire := hout ▸ ⟨[], List.append_nil _⟩
  notes := hout ▸ ⟨[], List.append_nil _⟩
  rets := hout ▸ ⟨[], List.append_nil _⟩
  cfg := hcfg
  halves := hready

theorem Keeps.trans (h : Keeps s t) (h' : Keeps t u) : Keeps s u where
  events := h.events.trans h'.events
  wire := h.wire.trans h'.wire
  notes := h.notes.trans h'.notes
  rets := h.rets.trans h'.rets
  cfg := h'.cfg.trans h.cfg
  halves := h'.halves.trans h.halves

theorem Keeps.setSvc (h : Keeps s t) (v : Option Service) : Keeps s { t with svc := v } := { h with }

theorem Keeps.setSw (h : Keeps s t) (d : Debounce) : Keeps s { t with sw := d } := { h with }

variable (s)

theorem keeps_refl : Keeps s s := keeps_of_same rfl rfl rfl

theorem keeps_emit (e : Event) : Keeps s (s.emit e) := { keeps_refl s with events := ⟨_, rfl⟩ }

theorem keeps_tx (bytes : List Byte) : Keeps s (s.tx bytes) := { keeps_refl s with wire := ⟨_, rfl⟩ }

theorem keeps_notify (n : Note) : Keeps s (s.notify n) := { keeps_refl s with notes := ⟨_, rfl⟩ }

theorem keeps_ret (v : Ret) : Keeps s (s.ret v) := { keeps_refl s with rets := ⟨_, rfl⟩ }

theorem keeps_setFlag (k : Nat) : Keeps s (setFlag k s) := keeps_of_same rfl rfl List.length_set

theorem keeps_clearFlag (k : Nat) : Keeps s (clearFlag k s) := keeps_of_same rfl rfl List.length_set

/-- Hardware reset clears the flags and keeps their number (70_reset_and_hazards.md R340; log 16). -/
theorem keeps_hardReset : Keeps s (hardReset s) := keeps_of_same rfl rfl List.length_replicate

theorem keeps_enqueue (m : Msg) : Keeps s (enqueue m s) := by
  rw [enqueue_frame]
  exact keeps_of_same rfl rfl rfl

theorem keeps_drain : Keeps s (drain s) := by
  obtain ⟨-, he⟩ | ⟨-, he⟩ := drain_cases s <;> rw [he]
  · exact keeps_refl s
  · exact { keeps_refl s with wire := ⟨_, rfl⟩ }

theorem keeps_applyStep (index : Nat) (delta : Int) (bank : Nat) : Keeps s (applyStep index delta bank s) := by
  rw [applyStep_frame]
  exact keeps_of_same rfl rfl rfl

theorem keeps_applySw (sw bank : Nat) : Keeps s (applySw sw bank s) := by
  rw [applySw_frame]
  exact keeps_of_same rfl rfl rfl

/-- DAWSYNC notifies at most once (41_bank_state.md R182, R183). -/
theorem keeps_dawSync (track bank : Nat) (value : Option Byte) (color : Option (BitVec 16)) (name : Option (List Byte)) :
    Keeps s (dawSync track bank value color name s) := by
  unfold dawSync
  split
  · unfold dawSyncAt
    dsimp only
    split
    · exact { keeps_refl s with notes := ⟨_, rfl⟩ }
    · exact keeps_of_same rfl rfl rfl
  · exact keeps_refl s

/-- A sample adds at most its step event (40_input_decoder.md R138). -/
theorem keeps_sampleCode (ch : Fin Config.nCh) (code : BitVec 4) (now : Time) : Keeps s (sampleCode ch code now s) := by
  have hevents : s.out.events <+: (sampleCode ch code now s).out.events :=
    ⟨_, (sampleCode_events ch code now s).symm⟩
  rw [sampleCode_frame]
  exact { keeps_refl s with events := hevents }

theorem keeps_sample (ch : Fin Config.nCh) (ph : BitVec 2) (now : Time) : Keeps s (sample ch ph now s) :=
  keeps_sampleCode s _ _ _

theorem keeps_turn (ch : Fin Config.nCh) (p0 p1 p2 p3 : BitVec 2) (t0 dt : Time) :
    Keeps s (turn ch p0 p1 p2 p3 t0 dt s) :=
  (((keeps_sample s _ _ _).trans (keeps_sample _ _ _ _)).trans (keeps_sample _ _ _ _)).trans (keeps_sample _ _ _ _)

theorem keeps_mtcPiece (piece : BitVec 3) (n : BitVec 4) : Keeps s (mtcPiece piece n s) := by
  rw [mtcPiece_eq]
  exact keeps_of_same rfl rfl rfl

theorem keeps_receivePacket (header status data1 : Byte) (now : Time) :
    Keeps s (receivePacket header status data1 now s) := by
  rw [receivePacket_frame]
  exact keeps_of_same rfl rfl rfl

theorem keeps_quarterPacket (p : BitVec 3) (n : BitVec 4) : Keeps s (quarterPacket p n s) :=
  keeps_receivePacket s _ _ _ _

theorem keeps_frameAction (type : Nat) (track bank : Byte) (payload : List Byte) :
    Keeps s (frameAction type track bank payload s) := by
  unfold frameAction
  split
  iterate 3 exact keeps_dawSync s _ _ _ _ _
  · split
    · exact keeps_notify s _
    · exact keeps_refl s
  · exact keeps_of_same rfl rfl rfl
  · exact keeps_dawSync s _ _ _ _ _

theorem keeps_receiveFrame (bytes : List Byte) : Keeps s (receiveFrame bytes s) := by
  unfold receiveFrame
  split
  · exact keeps_of_same rfl rfl rfl
  · split
    · exact keeps_of_same rfl rfl rfl
    · have hcounted : Keeps s { s with sysexCount := s.sysexCount + 1 } := keeps_of_same rfl rfl rfl
      dsimp only
      split
      · exact hcounted
      · exact hcounted.trans (keeps_frameAction _ _ _ _ _)

theorem keeps_serviceChannels (v : Service) (is : List (Fin Config.nMain)) : Keeps s (serviceChannels v is s) := by
  induction is generalizing s with
  | nil => exact keeps_refl s
  | cons i rest ih =>
    refine Keeps.trans ?_ (ih _)
    split
    · exact keeps_sample s _ _ _
    · exact keeps_refl s

theorem keeps_serviceStep (v : Service) : Keeps s (serviceStep v s) := by
  unfold serviceStep
  cases v.stage with
  | sample => exact (keeps_serviceChannels s v mainIndices).setSvc _
  | clear => exact ((keeps_refl s).setSvc none).trans (keeps_clearFlag _ v.half)

theorem keeps_switchPresses (old new : BitVec 16) (is : List (Fin Config.nSw)) :
    Keeps s (switchPresses old new is s) := by
  induction is generalizing s with
  | nil => exact keeps_refl s
  | cons i rest ih =>
    refine Keeps.trans ?_ (ih _)
    split
    · exact (keeps_emit s _).trans (keeps_applySw _ _ _)
    · exact keeps_refl s

theorem keeps_switchPoll (snap : BitVec 16) (now : Time) : Keeps s (switchPoll snap now s) := by
  unfold switchPoll
  split
  · exact keeps_refl s
  · have hpolled : Keeps s { s with sw := { s.sw with tPoll := now } } := (keeps_refl s).setSw _
    exact (hpolled.trans (keeps_switchPresses _ s.sw.snap snap switchIndices)).setSw _

theorem keeps_buttonPoll (snap : BitVec 16) (now : Time) : Keeps s (buttonPoll snap now s) := by
  unfold buttonPoll
  split
  · exact keeps_refl s
  · dsimp only
    rw [buttonPresses_eq]
    exact { keeps_refl s with events := ⟨_, rfl⟩ }

/-! ### The instructions that decide something themselves -/

theorem execSetbank_keeps (bank : Byte) : NextSatisfies (Keeps s) (execSetbank bank s) := by
  unfold execSetbank
  split
  · exact keeps_of_same rfl rfl rfl
  · exact keeps_refl s

theorem execResetslot_keeps (bank track : Byte) : NextSatisfies (Keeps s) (execResetslot bank track s) := by
  unfold execResetslot
  split
  · exact keeps_of_same rfl rfl rfl
  · exact keeps_refl s

theorem execSlotread_keeps (bank track : Byte) : NextSatisfies (Keeps s) (execSlotread bank track s) := by
  unfold execSlotread
  split <;> exact keeps_ret s _

theorem execCfgwrite_keeps (bank track : Byte) (edit : CfgEdit) :
    NextSatisfies (Keeps s) (execCfgwrite bank track edit s) := by
  unfold execCfgwrite
  split
  · split
    · trivial
    · split
      · exact keeps_of_same rfl rfl rfl
      · trivial
  · exact keeps_refl s

theorem execEnq_keeps (m : Msg) : NextSatisfies (Keeps s) (execEnq m s) := by
  unfold execEnq
  split
  · exact (keeps_enqueue s m).trans (keeps_ret _ _)
  · trivial

theorem execFlagset_keeps (k : Nat) : NextSatisfies (Keeps s) (execFlagset k s) := by
  unfold execFlagset
  split
  · exact keeps_setFlag s k
  · trivial

theorem execFlagclr_keeps (k : Nat) : NextSatisfies (Keeps s) (execFlagclr k s) := by
  unfold execFlagclr
  split
  · exact keeps_clearFlag s k
  · trivial

theorem execEncservice_keeps (k : Nat) (ph : Vector (BitVec 2) Config.nMain) (now : Time) :
    NextSatisfies (Keeps s) (execEncservice k ph now s) := by
  unfold execEncservice
  split
  · split
    · exact keeps_of_same rfl rfl rfl
    · exact keeps_refl s
  · trivial

theorem execSnap16_keeps (button : Bool) (snap : BitVec 16) (now : Time) :
    NextSatisfies (Keeps s) (execSnap16 button snap now s) := by
  cases button with
  | true => exact keeps_buttonPoll s _ _
  | false => exact keeps_switchPoll s _ _

theorem execNavenc_keeps (ph : BitVec 2) (now : Time) : NextSatisfies (Keeps s) (execNavenc ph now s) := by
  unfold execNavenc
  split
  · exact keeps_refl s
  · have hpolled : Keeps s { s with navPoll := now } := keeps_of_same rfl rfl rfl
    exact hpolled.trans (keeps_sample _ _ _ _)

theorem execNavbtn_keeps (lvl : Bool) (now : Time) : NextSatisfies (Keeps s) (execNavbtn lvl now s) := by
  unfold execNavbtn
  split
  · exact keeps_of_same rfl rfl rfl
  · split
    · dsimp only
      split
      · exact { keeps_emit s .navButtonPressed with }
      · exact keeps_of_same rfl rfl rfl
    · exact keeps_refl s

theorem execRt_keeps (status : Byte) (now : Time) : NextSatisfies (Keeps s) (execRt status now s) := by
  unfold execRt
  split
  · rw [realtime_frame]
    exact keeps_of_same rfl rfl rfl
  · trivial

theorem execMtcfull_keeps (hh mm ss ff : Byte) (r : BitVec 2) :
    NextSatisfies (Keeps s) (execMtcfull hh mm ss ff r s) := by
  unfold execMtcfull
  iterate 7 refine Keeps.trans ?_ (keeps_quarterPacket _ _ _)
  exact keeps_quarterPacket s _ _

end Keeping

/-- Every instruction only extends the streams: each row by the lemma of the operation it stands for. -/
theorem exec_keeps (i : Instr) (s : State) : NextSatisfies (Keeps s) (exec i s) :=
  match i with
  | .qcode0000 .. | .qcode0001 .. | .qcode0010 .. | .qcode0011 .. | .qcode0100 .. | .qcode0101 .. | .qcode0110 ..
  | .qcode0111 .. | .qcode1000 .. | .qcode1001 .. | .qcode1010 .. | .qcode1011 .. | .qcode1100 .. | .qcode1101 ..
  | .qcode1110 .. | .qcode1111 .. => keeps_sampleCode s _ _ _
  | .pktCv8 .. | .pktCv9 .. | .pktCvA .. | .pktCvB .. | .pktCvC .. | .pktCvD .. | .pktCvE .. | .pktMtc ..
  | .pktRtF8 .. | .pktRtF9 .. | .pktRtFA .. | .pktRtFB .. | .pktRtFC .. | .pktRtFD .. | .pktRtFE .. | .pktRtFF ..
  | .pktIgnored .. | .rxpkt .. | .sysreset .. | .rtbyte .. => keeps_receivePacket s _ _ _ _
  | .qfP0 .. | .qfP1 .. | .qfP2 .. | .qfP3 .. | .qfP4 .. | .qfP5 .. | .qfP6 .. | .qfP7 .. | .mtcqf .. =>
    keeps_mtcPiece s _ _
  | .sxT01 .. | .sxT02 .. | .sxT03 .. | .sxT04 .. | .sxT05 .. | .sxT06 .. | .sxMalformed .. | .xport8 ..
  | .rxsysex .. | .sx .. => keeps_receiveFrame s _
  | .txControlChange .. | .txNoteOn .. | .txNoteOff .. | .txPitchBend .. | .txRealtime .. | .txSysEx .. =>
    keeps_tx s _
  | .rgb565 .. | .pack565 .. | .unpack565 .. | .statread .. | .serialize => keeps_ret s _
  | .setaccel _ | .resetall | .deserialize _ => keeps_of_same rfl rfl rfl
  | .turncw .. | .turnccw .. => keeps_turn s _ _ _ _ _ _ _
  | .qsample .. => keeps_sample s _ _ _
  | .swpoll .. => keeps_switchPoll s _ _
  | .btnpoll .. => keeps_buttonPoll s _ _
  | .applystep .. => keeps_applyStep s _ _ _
  | .applysw .. => keeps_applySw s _ _
  | .dawsync .. => keeps_dawSync s _ _ _ _ _
  | .drain => keeps_drain s
  | .qframe .. => keeps_quarterPacket s _ _
  | .setbank _ => execSetbank_keeps s _
  | .resetslot .. => execResetslot_keeps s _ _
  | .slotread .. => execSlotread_keeps s _ _
  | .cfgwrite .. => execCfgwrite_keeps s _ _ _
  | .enq _ => execEnq_keeps s _
  | .flagset _ => execFlagset_keeps s _
  | .flagclr _ => execFlagclr_keeps s _
  | .encservice .. => execEncservice_keeps s _ _ _
  | .snap16 .. => execSnap16_keeps s _ _ _
  | .navenc .. => execNavenc_keeps s _ _
  | .navbtn .. => execNavbtn_keeps s _ _
  | .rt .. => execRt_keeps s _ _
  | .mtcfull .. => execMtcfull_keeps s _ _ _ _ _

/-- Every step extends the streams of a state before it: reset, service steps and instructions do, and no input is a
stream. -/
theorem step_keeps_outputs (s : State) : NextSatisfies (Keeps s) (step s) :=
  step_keeps (fun _ _ h => { h with }) (fun u h => h.trans (keeps_hardReset u))
    (fun u v _ h => h.trans (keeps_serviceStep u v))
    (fun i u h => nextSatisfies_iff.mpr fun t hexec => h.trans (nextSatisfies_iff.mp (exec_keeps i u) t hexec))
    s (keeps_refl s)

/-- Settles O32: the copy by the read of the table, its permanence row by row and step by step. -/
theorem slotreadReturnsACopy : Obligations.SlotreadReturnsACopy :=
  ⟨exec_slotread_at, fun _ _ s h => execSlotread_out_of_range s (by omega),
    fun i s => nextSatisfies_iff.mp (exec_keeps i s), fun s => nextSatisfies_iff.mp (step_keeps_outputs s)⟩

end Sys2Proof.Machine

/-! PROOFS. The family of 42_outbound.md: what ENQ takes and what it refuses, the capacity of the queue, and what DRAIN
takes from it and writes. -/

namespace Sys2Proof.Machine

/-! ## The empty queue -/

theorem OutQueue.contents_eq_nil_iff (q : OutQueue) : q.contents = [] ↔ q.count.val = 0 := by
  rw [← List.length_eq_zero_iff, length_contents]

/-! ## The ranges of a message -/

section Ranges

variable {sysexMax c k v : Nat}

/-- The ranges of a message with two data fields (10_state.md R31). -/
theorem msgWf_controlChange_iff :
    msgWf sysexMax (.controlChange c k v) = true ↔ (1 ≤ c ∧ c ≤ 16) ∧ k ≤ 127 ∧ v ≤ 127 := by
  simp [msgWf, channelInRange, and_assoc]

theorem msgWf_noteOn : msgWf sysexMax (.noteOn c k v) = msgWf sysexMax (.controlChange c k v) := rfl

theorem msgWf_noteOff : msgWf sysexMax (.noteOff c k v) = msgWf sysexMax (.controlChange c k v) := rfl

theorem msgWf_pitchBend_iff {value14 : Int} :
    msgWf sysexMax (.pitchBend c value14) = true ↔ (1 ≤ c ∧ c ≤ 16) ∧ -8192 ≤ value14 ∧ value14 ≤ 8191 := by
  simp [msgWf, channelInRange, and_assoc]

theorem msgWf_sysEx_iff {bytes : List Byte} : msgWf sysexMax (.sysEx bytes) = true ↔ bytes.length ≤ sysexMax :=
  decide_eq_true_iff

end Ranges

/-! ## One ENQ -/

section Enq

variable {m : Msg} {s : State}

/-- An ill-formed message is refused (42_outbound.md R203). -/
theorem exec_enq_refused (h : ¬msgWf s.cfg.sysexMax m = true) : exec (.enq m) s = .refused .illFormedMessage :=
  if_neg h

theorem exec_enq_wf (hp : s.cfg.valued = Config.r9) (h : msgWf s.cfg.sysexMax m = true) :
    exec (.enq m) s = .next ((afterEnq m s).ret (.enq (!decide (s.oq.count.val = 32)))) := by
  rw [← enqueue_eq_afterEnq m hp, ← OutQueue.full_r9, ← hp]
  exact if_pos h

/-- A message handed to a queue with room joins it (42_outbound.md R201). -/
theorem exec_enq_room (hp : s.cfg.valued = Config.r9) (hwf : msgWf s.cfg.sysexMax m = true)
    (hroom : s.oq.count.val < 32) : exec (.enq m) s = .next ({ s with oq := s.oq.push m }.ret (.enq true)) := by
  have hne : s.oq.count.val ≠ 32 := hroom.ne
  simp [exec_enq_wf hp hwf, afterEnq, hne]

/-- A message handed to a full queue is counted and dropped (42_outbound.md R202). -/
theorem exec_enq_full (hp : s.cfg.valued = Config.r9) (hwf : msgWf s.cfg.sysexMax m = true)
    (hfull : s.oq.count.val = 32) :
    exec (.enq m) s = .next ({ s with errorCount := s.errorCount + 1 }.ret (.enq false)) := by
  simp only [exec_enq_wf hp hwf, afterEnq, hfull, if_true, decide_true, Bool.not_true]

end Enq

/-- Settles O36: the law for every message the test `msgWf` passes, then each tag's ranges under that test. -/
theorem enqAppendsOrFails : Obligations.EnqAppendsOrFails := by
  intro s hp taken
  have htaken : ∀ m, msgWf s.cfg.sysexMax m = true → taken m := fun m hwf =>
    ⟨fun hroom => ⟨_, exec_enq_room hp hwf hroom, OutQueue.contents_push _ m hroom, rfl, rfl⟩, exec_enq_full hp hwf⟩
  refine ⟨fun c k v h1 h16 hk hv => ?data, fun c v h1 h16 hlo hhi => ?bend, fun bytes h => ?sysEx,
    fun b => htaken _ rfl, htaken, fun m h => exec_enq_refused (Bool.eq_false_iff.mp h)⟩
  case data =>
    have hwf : msgWf s.cfg.sysexMax (.controlChange c k v) = true := msgWf_controlChange_iff.mpr ⟨⟨h1, h16⟩, hk, hv⟩
    exact ⟨htaken _ hwf, htaken _ (msgWf_noteOn.trans hwf), htaken _ (msgWf_noteOff.trans hwf)⟩
  case bend => exact htaken _ (msgWf_pitchBend_iff.mpr ⟨⟨h1, h16⟩, hlo, hhi⟩)
  case sysEx => exact htaken _ (msgWf_sysEx_iff.mpr h)

/-- Settles O37: each message has a field outside the ranges its tag allows. -/
theorem enqRefusesIllFormed : Obligations.EnqRefusesIllFormed := by
  refine fun s => ⟨fun c k v h => ?data, fun c v h => ?bend, fun bytes h => ?sysEx⟩
  case data =>
    have hill : ¬msgWf s.cfg.sysexMax (.controlChange c k v) = true := by
      rw [msgWf_controlChange_iff]
      omega
    exact ⟨exec_enq_refused hill, exec_enq_refused (mt msgWf_noteOn.symm.trans hill),
      exec_enq_refused (mt msgWf_noteOff.symm.trans hill)⟩
  case bend =>
    apply exec_enq_refused
    rw [msgWf_pitchBend_iff]
    omega
  case sysEx => exact exec_enq_refused (mt msgWf_sysEx_iff.mp (Nat.not_le.mpr h))

/-! ## A run of ENQs -/

/-- The answers to `n` ENQs on a queue with room for `room` messages (42_outbound.md R204). -/
def enqAnswers (room n : Nat) : List Ret :=
  List.replicate (min n room) (.enq true) ++ List.replicate (n - room) (.enq false)

theorem enqAnswers_room (room n : Nat) : enqAnswers (room + 1) (n + 1) = .enq true :: enqAnswers room n := by
  simp [enqAnswers, Nat.succ_min_succ, List.replicate_succ]

theorem enqAnswers_full (n : Nat) : enqAnswers 0 (n + 1) = .enq false :: enqAnswers 0 n := by
  simp [enqAnswers, List.replicate_succ]

/-- The error counter after one failure and `n` more. -/
theorem add_one_add_ofNat (e : BitVec 32) (n : Nat) : e + 1 + BitVec.ofNat 32 n = e + BitVec.ofNat 32 (n + 1) := by
  rw [Nat.add_comm n, BitVec.ofNat_add, BitVec.add_assoc]
  rfl

/-- The state that `n` ENQs of well-formed messages lead to from one with room for `room` of them: the queue is `q`, the
failures are counted, the answers returned (42_outbound.md R204). -/
def State.afterEnqs (room n : Nat) (q : OutQueue) (s : State) : State :=
  { s with
    oq := q
    errorCount := s.errorCount + BitVec.ofNat 32 (n - room)
    out := { s.out with rets := s.out.rets ++ enqAnswers room n } }

theorem afterEnqs_none (room : Nat) (s : State) : s.afterEnqs room 0 s.oq = s := by
  simp [State.afterEnqs, enqAnswers]

theorem afterEnqs_room (room n : Nat) (q q' : OutQueue) (s : State) :
    ({ s with oq := q' }.ret (.enq true)).afterEnqs room n q = s.afterEnqs (room + 1) (n + 1) q := by
  simp [State.afterEnqs, State.ret, enqAnswers_room]

theorem afterEnqs_full (n : Nat) (q : OutQueue) (s : State) :
    ({ s with errorCount := s.errorCount + 1 }.ret (.enq false)).afterEnqs 0 n q = s.afterEnqs 0 (n + 1) q := by
  simp only [State.afterEnqs, State.ret, Nat.sub_zero, add_one_add_ofNat, enqAnswers_full, List.append_assoc,
    List.singleton_append]

theorem execAll_cons_of_next {i : Instr} {rest : List Instr} {s u : State} (h : exec i s = .next u) :
    execAll (i :: rest) s = execAll rest u := by
  rw [execAll, h]

/-- A run of ENQs on a queue with room for `room` messages: the first `room` join the contents, each later one is counted
(42_outbound.md R204). -/
theorem execAll_enq (msgs : List Msg) {room : Nat} {s : State} (hp : s.cfg.valued = Config.r9)
    (hwf : ∀ m ∈ msgs, msgWf s.cfg.sysexMax m = true) (hroom : s.oq.count.val + room = 32) :
    ∃ q : OutQueue, q.contents = s.oq.contents ++ msgs.take room ∧
      execAll (msgs.map .enq) s = .next (s.afterEnqs room msgs.length q) := by
  induction msgs generalizing room s with
  | nil => exact ⟨s.oq, by simp, congrArg _ (afterEnqs_none room s).symm⟩
  | cons m rest ih =>
    obtain ⟨hm, hrest⟩ := List.forall_mem_cons.mp hwf
    cases room with
    | zero =>
      obtain ⟨q, hq, hrun⟩ :=
        ih (s := { s with errorCount := s.errorCount + 1 }.ret (.enq false)) hp hrest hroom
      exact ⟨q, hq, (execAll_cons_of_next (exec_enq_full hp hm hroom)).trans (afterEnqs_full _ q s ▸ hrun)⟩
    | succ room =>
      have hlt : s.oq.count.val < 32 := by omega
      have hroom' : (s.oq.push m).count.val + room = 32 := by
        rw [OutQueue.push_count _ _ hlt]
        omega
      obtain ⟨q, hq, hrun⟩ := ih (s := { s with oq := s.oq.push m }.ret (.enq true)) hp hrest hroom'
      refine ⟨q, ?_, (execAll_cons_of_next (exec_enq_room hp hm hlt)).trans (afterEnqs_room _ _ q _ s ▸ hrun)⟩
      simpa [OutQueue.contents_push _ _ hlt] using hq

/-- Settles O38: the run of ENQs on a queue with room for all 32. -/
theorem capacityLaw : Obligations.CapacityLaw := by
  intro msgs s hp hwf hempty
  have hcount : s.oq.count.val = 0 := congrArg Fin.val hempty
  have hnil : s.oq.contents = [] := s.oq.contents_eq_nil_iff.mpr hcount
  obtain ⟨q, hq, hrun⟩ := execAll_enq msgs (room := 32) hp hwf (by omega)
  exact ⟨_, hrun, hq.trans (by rw [hnil, List.nil_append]), rfl⟩

/-! ## One DRAIN -/

/-- A drain of a queue that holds messages takes the oldest and writes its bytes (42_outbound.md R205, R206). -/
theorem exec_drain_cons {m : Msg} {rest : List Msg} {s : State} (h : s.oq.contents = m :: rest) :
    exec .drain s = .next ({ s with oq := s.oq.pop }.tx (serialise m)) ∧ s.oq.pop.contents = rest := by
  obtain ⟨hempty, -⟩ | ⟨hne, hdrain⟩ := drain_cases s
  · exact absurd (h.symm.trans (s.oq.contents_eq_nil_iff.mpr hempty)) (List.cons_ne_nil m rest)
  · obtain ⟨hm, hrest⟩ := List.cons.inj ((OutQueue.contents_pop _ hne).symm.trans h)
    exact ⟨hm ▸ congrArg _ hdrain, hrest⟩

/-- A drain of an empty queue does nothing (42_outbound.md R207). -/
theorem exec_drain_nil {s : State} (h : s.oq.contents = []) : exec .drain s = .next s := by
  obtain ⟨-, hdrain⟩ | ⟨hne, -⟩ := drain_cases s
  · exact congrArg _ hdrain
  · exact absurd (s.oq.contents_eq_nil_iff.mp h) hne

/-- Settles O39. -/
theorem drainSendsTheOldest : Obligations.DrainSendsTheOldest :=
  ⟨fun _ _ _ h =>
    have ⟨hdrain, hrest⟩ := exec_drain_cons h
    ⟨_, hdrain, hrest, rfl, rfl⟩,
    fun _ => exec_drain_nil⟩

/-! ## The bytes of each variant -/

section Bytes

variable (c : Fin 16) (a b : BitVec 7)

theorem serialise_controlChange_or :
    serialise (.controlChange (c.val + 1) a.toNat b.toNat) =
      [0xB0 ||| BitVec.ofNat 8 c.val, a.setWidth 8, b.setWidth 8] := by
  simp [serialise, statusByte_or, BitVec.ofNat_toNat]

theorem serialise_noteOn_or :
    serialise (.noteOn (c.val + 1) a.toNat b.toNat) =
      [0x90 ||| BitVec.ofNat 8 c.val, a.setWidth 8, b.setWidth 8] := by
  simp [serialise, statusByte_or, BitVec.ofNat_toNat]

theorem serialise_noteOff_or :
    serialise (.noteOff (c.val + 1) a.toNat b.toNat) =
      [0x80 ||| BitVec.ofNat 8 c.val, a.setWidth 8, b.setWidth 8] := by
  simp [serialise, statusByte_or, BitVec.ofNat_toNat]

/-- The low seven bits go out before the high seven (42_outbound.md R214). -/
theorem serialise_pitchBend_or :
    serialise (.pitchBend (c.val + 1) (((a ++ b).toNat : Int) - 8192)) =
      [0xE0 ||| BitVec.ofNat 8 c.val, b.setWidth 8, a.setWidth 8] := by
  simp [serialise, statusByte_or, bendWire_append, extract_append_7_7]

end Bytes

/-- Settles O40: the drained message is serialised, variant by variant. -/
theorem drainWritesTheBytesOfEachVariant : Obligations.DrainWritesTheBytesOfEachVariant := by
  intro m rest s h
  obtain ⟨hdrain, -⟩ := exec_drain_cons h
  have wire {bytes : List Byte} (hbytes : serialise m = bytes) : s.out.wire ++ serialise m = s.out.wire ++ bytes :=
    congrArg _ hbytes
  refine ⟨_, hdrain, ?controlChange, ?noteOn, ?noteOff, ?pitchBend, ?sysEx, ?realtime⟩
  case controlChange =>
    rintro c k v rfl
    exact wire (serialise_controlChange_or c k v)
  case noteOn =>
    rintro c n v rfl
    exact wire (serialise_noteOn_or c n v)
  case noteOff =>
    rintro c n v rfl
    exact wire (serialise_noteOff_or c n v)
  case pitchBend =>
    rintro c hi lo rfl
    exact wire (serialise_pitchBend_or c hi lo)
  case sysEx =>
    rintro bytes rfl
    exact wire rfl
  case realtime =>
    rintro b rfl
    exact wire rfl

end Sys2Proof.Machine

/-! PROOFS. The family of 43_inbound_sysex.md: where a packet goes, what each frame does, the packed colours, and the two
transport flags that only a frame of type 05 raises. -/

namespace Sys2Proof.Machine

/-! ## The dispatch of a packet -/

section Packets

variable {hi c : BitVec 4} {status : Byte} (data1 : Byte) (now : Time) (s : State)

theorem isVoiceHeader_append_iff (hi c : BitVec 4) : isVoiceHeader (hi ++ c) = true ↔ 8 ≤ c.toNat ∧ c.toNat ≤ 14 := by
  rw [isVoiceHeader_iff, cin_append]

theorem isVoiceHeader_append_eq_false (h : ¬(8 ≤ c.toNat ∧ c.toNat ≤ 14)) : isVoiceHeader (hi ++ c) = false := by
  rwa [Bool.eq_false_iff, ne_eq, isVoiceHeader_append_iff]

theorem isIgnoredPacket_append (hvoice : ¬(8 ≤ c.toNat ∧ c.toNat ≤ 14)) (hmtc : status ≠ 0xF1)
    (hrt : ¬(c = 0xF ∧ 0xF8 ≤ status.toNat)) : isIgnoredPacket (hi ++ c) status = true := by
  have hcin : c.toNat = 15 → c = 0xF := fun h => BitVec.eq_of_toNat_eq h
  simp only [isIgnoredPacket, isVoiceHeader_append_eq_false hvoice, low_append, decide_eq_true hmtc, Bool.not_false,
    Bool.true_and, Bool.not_eq_true', Bool.and_eq_false_iff, decide_eq_false_iff_not]
  exact not_and_or.mp fun h => hrt ⟨hcin h.1, h.2⟩

/-- A channel-voice packet changes nothing, whatever its status (43_inbound_sysex.md R232). -/
theorem receivePacket_voice (hvoice : 8 ≤ c.toNat ∧ c.toNat ≤ 14) :
    receivePacket (hi ++ c) status data1 now s = s := by
  rw [receivePacket, packetClass_voice status ((isVoiceHeader_append_iff hi c).mpr hvoice)]

/-- A packet of no class changes nothing (43_inbound_sysex.md R233). -/
theorem receivePacket_ignored (hvoice : ¬(8 ≤ c.toNat ∧ c.toNat ≤ 14)) (hmtc : status ≠ 0xF1)
    (hrt : ¬(c = 0xF ∧ 0xF8 ≤ status.toNat)) : receivePacket (hi ++ c) status data1 now s = s := by
  rw [receivePacket, packetClass_ignored (isIgnoredPacket_append hvoice hmtc hrt)]

end Packets

/-- Settles O44, in the order of precedence. -/
theorem rxpktDispatch : Obligations.RxpktDispatch := by
  intro hi c status data1 data2 now s
  dsimp only
  split
  case isTrue hvoice => exact congrArg Host.Outcome.next (receivePacket_voice data1 now s hvoice)
  case isFalse hvoice =>
    split
    case isTrue hmtc =>
      subst hmtc
      have hmtc := receivePacket_mtc data1 now s (isVoiceHeader_append_eq_false (hi := hi) hvoice)
      exact ⟨_, congrArg Host.Outcome.next hmtc, rfl⟩
    case isFalse hmtc =>
      split
      case isTrue hrt =>
        obtain ⟨rfl, hstatus⟩ := hrt
        exact ⟨_, rfl, exec_rt_eq_packet data1 now s (cin_append hi 0xF#4) hstatus⟩
      case isFalse hrt => exact congrArg Host.Outcome.next (receivePacket_ignored data1 now s hvoice hmtc hrt)

/-- Settles O43: each row is a channel-voice packet, an ignored one, or a realtime one without an action. -/
theorem packetsWithoutEffect : Obligations.PacketsWithoutEffect := by
  intro hi status data1 data2 now s
  have same {u : State} (h : u = s) : (.next u : Result) = .next s := congrArg _ h
  have voice := fun (c : BitVec 4) (hc : 8 ≤ c.toNat ∧ c.toNat ≤ 14) =>
    same (receivePacket_voice (hi := hi) (status := status) data1 now s hc)
  have rt := fun (b : Byte) (hb : 0xF8 ≤ b.toNat) (hidle : realtime b now s = s) =>
    same ((receivePacket_realtime data1 now s (cin_append hi 0xF#4) hb).trans hidle)
  refine ⟨voice 0x8 (by decide), voice 0x9 (by decide), voice 0xA (by decide), voice 0xB (by decide),
    voice 0xC (by decide), voice 0xD (by decide), voice 0xE (by decide), fun c hc hmtc => ?low, fun hstatus hmtc => ?high,
    rt 0xF8 (by decide) rfl, rt 0xF9 (by decide) rfl, rt 0xFD (by decide) rfl⟩
  case low =>
    have hne : c ≠ 0xF := by
      rintro rfl
      exact absurd hc (by decide)
    exact same (receivePacket_ignored data1 now s (by omega) hmtc fun h => hne h.1)
  case high => exact same (receivePacket_ignored data1 now s (by decide) hmtc fun h => by omega)

/-! ## Colours -/

/-- Masking the low bits of a colour byte away is zero-filling its packed field (43_inbound_sysex.md R261). -/
theorem high5_append_zero (v : Byte) : v.extractLsb' 3 5 ++ 0#3 = v &&& 0xF8 := by
  apply BitVec.eq_of_getLsbD_eq
  intro i hi
  rw [getLsbD_append_5_3]
  interval_cases i <;> simp

theorem high6_append_zero (v : Byte) : v.extractLsb' 2 6 ++ 0#2 = v &&& 0xFC := by
  apply BitVec.eq_of_getLsbD_eq
  intro i hi
  rw [getLsbD_append_6_2]
  interval_cases i <;> simp

/-- A packed colour is its three fields. -/
theorem append_extract_5_6_5 (c : BitVec 16) : c.extractLsb' 11 5 ++ c.extractLsb' 5 6 ++ c.extractLsb' 0 5 = c := by
  apply BitVec.eq_of_getLsbD_eq
  intro i hi
  rw [getLsbD_append_5_6_5]
  interval_cases i <;> simp

/-- Unpacking what was packed masks the low bits away (43_inbound_sysex.md R262). -/
theorem unpack_pack565 (r g b : Byte) :
    red565 (pack565 r g b) = r &&& 0xF8 ∧ green565 (pack565 r g b) = g &&& 0xFC ∧
      blue565 (pack565 r g b) = b &&& 0xF8 := by
  obtain ⟨hr, hg, hb⟩ := extract_append_5_6_5 (r.extractLsb' 3 5) (g.extractLsb' 2 6) (b.extractLsb' 3 5)
  rw [red565_eq, green565_eq, blue565_eq, pack565_eq, hr, hg, hb]
  exact ⟨high5_append_zero r, high6_append_zero g, high5_append_zero b⟩

/-- Packing what was unpacked gives the colour back (43_inbound_sysex.md R262). -/
theorem pack_unpack565 (c : BitVec 16) : pack565 (red565 c) (green565 c) (blue565 c) = c := by
  have high5 : ∀ v : BitVec 5, (v ++ 0#3 : Byte).extractLsb' 3 5 = v := fun _ => BitVec.extractLsb'_append_eq_left
  have high6 : ∀ v : BitVec 6, (v ++ 0#2 : Byte).extractLsb' 2 6 = v := fun _ => BitVec.extractLsb'_append_eq_left
  rw [pack565_eq, red565_eq, green565_eq, blue565_eq, high5, high6, high5, append_extract_5_6_5]

/-- Settles O56. -/
theorem coloursPackAndUnpack : Obligations.ColoursPackAndUnpack := by
  refine ⟨fun r g b s => ?_, fun c s => ?_, unpack_pack565, pack_unpack565⟩
  · rw [← pack565_eq]
    rfl
  · rw [← red565_eq, ← green565_eq, ← blue565_eq]
    rfl

/-! ## Frames -/

section Frames

variable {s : State}

/-- A frame of another shape or of an unknown type is counted as an error (43_inbound_sysex.md R241, R244, R247). -/
theorem receiveFrame_malformed {bytes : List Byte} (hp : s.cfg.valued = Config.r9) (h : isKnownFrame bytes = false) :
    receiveFrame bytes s = { s with errorCount := s.errorCount + 1 } := by
  cases hparse : parseFrame Config.r9.sysexId bytes with
  | none => simp only [receiveFrame, hp, hparse, raiseError_malformedPacket]
  | some parts =>
    obtain ⟨t, track, bank, payload⟩ := parts
    obtain rfl := eq_frameOf_of_parseFrame hparse
    have hunknown : t.toNat < 1 ∨ 6 < t.toNat := by
      simpa only [isKnownFrame_frameOf, Bool.and_eq_false_iff, decide_eq_false_iff_not, not_le] using h
    simp only [receiveFrame, hp, parseFrame_frameOf, if_pos hunknown, raiseError_malformedPacket]

variable {t track bank : Byte} {payload : List Byte}

/-- An undersized frame of a known type is counted as processed and dropped (43_inbound_sysex.md R246). -/
theorem receiveFrame_undersized (hp : s.cfg.valued = Config.r9) (h1 : 1 ≤ t.toNat) (h6 : t.toNat ≤ 6)
    (hlen : payload.length + 8 < minLen t.toNat) :
    receiveFrame (frameOf t track bank payload) s = { s with sysexCount := s.sysexCount + 1 } := by
  rw [receiveFrame_known _ _ _ _ _ hp h1 h6, if_pos hlen]

/-- A long enough frame of a known type is counted, then acts (43_inbound_sysex.md R240). -/
theorem receiveFrame_acts (hp : s.cfg.valued = Config.r9) (h1 : 1 ≤ t.toNat) (h6 : t.toNat ≤ 6)
    (hlen : minLen t.toNat ≤ payload.length + 8) :
    receiveFrame (frameOf t track bank payload) s =
      frameAction t.toNat track bank payload { s with sysexCount := s.sysexCount + 1 } := by
  rw [receiveFrame_known _ _ _ _ _ hp h1 h6, if_neg (Nat.not_lt.mpr hlen)]

end Frames

/-- Settles O51: whatever is wrong with the frame, it is no known one. -/
theorem malformedFrames : Obligations.MalformedFrames := by
  intro bytes s hp h
  refine congrArg Host.Outcome.next (receiveFrame_malformed hp ?_)
  rw [Bool.eq_false_iff]
  intro hknown
  simp only [isKnownFrame, Bool.and_eq_true_iff, decide_eq_true_iff] at hknown
  obtain ⟨⟨⟨⟨hlen, hid⟩, hend⟩, hlo⟩, hhi⟩ := hknown
  obtain hshort | hother | hopen | hzero | ⟨t, ht, hlarge⟩ := h
  · omega
  · exact hother hid
  · exact hopen hend
  · rw [List.getD_eq_getElem?_getD, hzero] at hlo
    exact absurd hlo (by decide)
  · rw [List.getD_eq_getElem?_getD, ht] at hhi
    exact absurd hhi (Nat.not_le.mpr hlarge)

/-- Settles O54: each bound is the least length of its type. -/
theorem undersizedFrames : Obligations.UndersizedFrames := by
  have hbounds : ∀ p ∈ [((0x01 : Byte), 11), (0x02, 9), (0x04, 9), (0x05, 9), (0x06, 12)],
      1 ≤ p.1.toNat ∧ p.1.toNat ≤ 6 ∧ p.2 = minLen p.1.toNat := by decide
  intro p hmem track bank payload s hp hlen
  obtain ⟨h1, h6, hmin⟩ := hbounds p hmem
  exact congrArg Host.Outcome.next (receiveFrame_undersized hp h1 h6 (hmin ▸ hlen))

section Actions

variable (track bank : Byte) (payload : List Byte) (v : Byte) (s : State)

/-- A VU frame notifies the display of a track that exists (43_inbound_sysex.md R253). -/
theorem frameAction_vu {track : Byte} (h : track.toNat < 16) :
    frameAction 4 track bank (v :: payload) s = s.notify (.vu ⟨track.toNat, h⟩ v) := dif_pos h

theorem frameAction_vu_out_of_range {track : Byte} (h : 16 ≤ track.toNat) : frameAction 4 track bank payload s = s :=
  dif_neg (Nat.not_lt.mpr h)

/-- Of a name the decoder hands over five characters (43_inbound_sysex.md R252). -/
theorem frameAction_name (hp : s.cfg.valued = Config.r9) :
    frameAction 3 track bank payload s = dawSync track.toNat bank.toNat none none (some (payload.take 5)) s := by
  change dawSync track.toNat bank.toNat none none (some (payload.take s.cfg.valued.nameRx)) s = _
  rw [hp, Config.r9_nameRx]

end Actions

/-- Settles O52: each frame is counted and acts, and its action is the DAWSYNC of its payload. -/
theorem framesThatSyncASlot : Obligations.FramesThatSyncASlot := by
  intro track bank s hp s' frame colour
  have acts := fun (t : Byte) (payload : List Byte) (h1 : 1 ≤ t.toNat) (h6 : t.toNat ≤ 6)
      (hlen : minLen t.toNat ≤ payload.length + 8) =>
    congrArg (Host.Outcome.next : State → Result) (receiveFrame_acts (track := track) (bank := bank) hp h1 h6 hlen)
  have hcolour : ∀ r g b, colour r g b = pack565 r g b := fun r g b => (pack565_eq r g b).symm
  refine ⟨fun r g b more => ?colour, fun v more => ?value, fun name => ?name, fun v r g b more => ?both⟩
  case colour =>
    rw [hcolour]
    exact ⟨_, acts 0x01 ([r, g, b] ++ more) (by decide) (by decide) (Nat.le_add_left 11 _), rfl⟩
  case value => exact ⟨_, acts 0x02 (v :: more) (by decide) (by decide) (Nat.le_add_left 9 _), rfl⟩
  case name =>
    exact ⟨_, acts 0x03 name (by decide) (by decide) (Nat.le_add_left 8 _),
      congrArg Host.Outcome.next (frameAction_name track bank name s' hp).symm⟩
  case both =>
    rw [hcolour]
    exact ⟨_, acts 0x06 ([v, r, g, b] ++ more) (by decide) (by decide) (Nat.le_add_left 12 _), rfl⟩

/-- Settles O53: each frame is long enough, so it is counted and acts. -/
theorem vuAndTransportFrames : Obligations.VuAndTransportFrames := by
  intro track bank v more s hp frame
  have acts := fun (t : Byte) (h1 : 1 ≤ t.toNat) (h6 : t.toNat ≤ 6) (hmin : minLen t.toNat = 9) =>
    receiveFrame_acts (track := track) (bank := bank) (payload := v :: more) hp h1 h6
      (hmin ▸ Nat.le_add_left 9 more.length)
  have vu := acts 0x04 (by decide) (by decide) rfl
  refine ⟨fun k hk => ?_, fun h => ?_, congrArg Host.Outcome.next (acts 0x05 (by decide) (by decide) rfl)⟩
  · have htrack : track.toNat = k.val := hk ▸ toNat_ofNat8 (by omega)
    have hlt : track.toNat < 16 := htrack ▸ k.isLt
    obtain rfl : (⟨track.toNat, hlt⟩ : Fin 16) = k := Fin.ext htrack
    exact congrArg Host.Outcome.next (vu.trans (frameAction_vu bank more v _ hlt))
  · exact congrArg Host.Outcome.next (vu.trans (frameAction_vu_out_of_range bank _ _ h))

/-! ## What leaves the transport flags alone -/

section TransportFlags

variable (s : State)

@[simp] theorem setFlag_xp (k : Nat) : (setFlag k s).xp = s.xp := rfl

@[simp] theorem clearFlag_xp (k : Nat) : (clearFlag k s).xp = s.xp := rfl

@[simp] theorem enqueue_xp (m : Msg) : (enqueue m s).xp = s.xp := by rw [enqueue_frame]

@[simp] theorem drain_xp : (drain s).xp = s.xp := by
  obtain ⟨-, he⟩ | ⟨-, he⟩ := drain_cases s <;> rw [he]
  rfl

@[simp] theorem applyStep_xp (index : Nat) (delta : Int) (bank : Nat) : (applyStep index delta bank s).xp = s.xp := by
  rw [applyStep_frame]

@[simp] theorem applySw_xp (sw bank : Nat) : (applySw sw bank s).xp = s.xp := by rw [applySw_frame]

@[simp] theorem dawSync_xp (track bank : Nat) (value : Option Byte) (color : Option (BitVec 16))
    (name : Option (List Byte)) : (dawSync track bank value color name s).xp = s.xp := by rw [dawSync_frame]

@[simp] theorem sampleCode_xp (ch : Fin Config.nCh) (code : BitVec 4) (now : Time) :
    (sampleCode ch code now s).xp = s.xp := by rw [sampleCode_frame]

@[simp] theorem sample_xp (ch : Fin Config.nCh) (ph : BitVec 2) (now : Time) : (sample ch ph now s).xp = s.xp :=
  sampleCode_xp s _ _ _

@[simp] theorem turn_xp (ch : Fin Config.nCh) (p0 p1 p2 p3 : BitVec 2) (t0 dt : Time) :
    (turn ch p0 p1 p2 p3 t0 dt s).xp = s.xp := by simp [turn]

@[simp] theorem mtcPiece_xp (piece : BitVec 3) (n : BitVec 4) : (mtcPiece piece n s).xp = s.xp := by rw [mtcPiece_eq]

@[simp] theorem quarterPacket_xp (p : BitVec 3) (n : BitVec 4) : (quarterPacket p n s).xp = s.xp := by
  rw [quarterPacket_eq, mtcPiece_xp]

@[simp] theorem switchPoll_xp (snap : BitVec 16) (now : Time) : (switchPoll snap now s).xp = s.xp := by
  unfold switchPoll
  split
  · rfl
  · dsimp only
    rw [switchPresses_frame]

@[simp] theorem buttonPoll_xp (snap : BitVec 16) (now : Time) : (buttonPoll snap now s).xp = s.xp := by
  unfold buttonPoll
  split
  · rfl
  · dsimp only
    rw [buttonPresses_eq]

@[simp] theorem serviceStep_xp (v : Service) : (serviceStep v s).xp = s.xp := by
  unfold serviceStep
  cases v.stage with
  | sample =>
    dsimp only
    rw [serviceChannels_frame]
  | clear => rfl

theorem execSetbank_xp (bank : Byte) : NextSatisfies (·.xp = s.xp) (execSetbank bank s) := by
  unfold execSetbank
  split <;> simp

theorem execResetslot_xp (bank track : Byte) : NextSatisfies (·.xp = s.xp) (execResetslot bank track s) := by
  unfold execResetslot
  split <;> simp

theorem execSlotread_xp (bank track : Byte) : NextSatisfies (·.xp = s.xp) (execSlotread bank track s) := by
  unfold execSlotread
  split <;> simp

theorem execCfgwrite_xp (bank track : Byte) (edit : CfgEdit) :
    NextSatisfies (·.xp = s.xp) (execCfgwrite bank track edit s) := by
  unfold execCfgwrite
  split
  · split
    · simp
    · split <;> simp
  · simp

theorem execEnq_xp (msg : Msg) : NextSatisfies (·.xp = s.xp) (execEnq msg s) := by
  unfold execEnq
  split <;> simp

theorem execFlagset_xp (k : Nat) : NextSatisfies (·.xp = s.xp) (execFlagset k s) := by
  unfold execFlagset
  split <;> simp

theorem execFlagclr_xp (k : Nat) : NextSatisfies (·.xp = s.xp) (execFlagclr k s) := by
  unfold execFlagclr
  split <;> simp

theorem execEncservice_xp (k : Nat) (ph : Vector (BitVec 2) Config.nMain) (now : Time) :
    NextSatisfies (·.xp = s.xp) (execEncservice k ph now s) := by
  unfold execEncservice
  split
  · split <;> simp
  · simp

theorem execSnap16_xp (button : Bool) (snap : BitVec 16) (now : Time) :
    NextSatisfies (·.xp = s.xp) (execSnap16 button snap now s) := by
  unfold execSnap16
  split <;> simp

theorem execNavenc_xp (ph : BitVec 2) (now : Time) : NextSatisfies (·.xp = s.xp) (execNavenc ph now s) := by
  unfold execNavenc
  split <;> simp

theorem execNavbtn_xp (lvl : Bool) (now : Time) : NextSatisfies (·.xp = s.xp) (execNavbtn lvl now s) := by
  unfold execNavbtn
  split
  · simp
  · split
    · dsimp only
      split <;> simp
    · simp

theorem execMtcfull_xp (hh mm ss ff : Byte) (r : BitVec 2) :
    NextSatisfies (·.xp = s.xp) (execMtcfull hh mm ss ff r s) := by simp [execMtcfull]

/-! ### Frames of the other types -/

/-- The envelope check answers byte 4 as the type (43_inbound_sysex.md R242). -/
theorem getElem?_four_of_parseFrame {id bytes payload : List Byte} {t track bank : Byte}
    (h : parseFrame id bytes = some (t, track, bank, payload)) : bytes[4]? = some t := by
  unfold parseFrame at h
  split at h
  case h_1 =>
    split at h
    case isTrue =>
      obtain ⟨rfl, -⟩ := Prod.mk.inj (Option.some.inj h)
      rfl
    case isFalse => cases h
  case h_2 => cases h

theorem frameAction_xp {t : Nat} (track bank : Byte) (payload : List Byte) (ht : t ≠ 5) :
    (frameAction t track bank payload s).xp = s.xp := by
  unfold frameAction
  split
  case h_4 => split <;> rfl
  case h_5 => exact absurd rfl ht
  all_goals exact dawSync_xp s _ _ _ _ _

/-- Only a frame whose byte 4 is 05 writes the flags (43_inbound_sysex.md R254). -/
theorem receiveFrame_xp {bytes : List Byte} (h : bytes[4]? ≠ some 0x05) : (receiveFrame bytes s).xp = s.xp := by
  unfold receiveFrame
  split
  · rfl
  next t track bank payload hparse =>
    have ht : t.toNat ≠ 5 := fun h5 =>
      h ((getElem?_four_of_parseFrame hparse).trans (congrArg some (BitVec.eq_of_toNat_eq h5)))
    split
    · rfl
    · dsimp only
      split
      · rfl
      · exact frameAction_xp _ _ _ _ ht

end TransportFlags

/-! ## What raises no flag -/

/-- From `s` to `t` neither recording nor paused became 1 (43_inbound_sysex.md R254, 44_mtc_transport.md R291). -/
structure RaisesNothing (s t : State) : Prop where
  recording : t.xp.recording = true → s.xp.recording = true
  paused : t.xp.paused = true → s.xp.paused = true

theorem raisesNothing_of_xp {s t : State} (h : t.xp = s.xp) : RaisesNothing s t where
  recording := by rw [h]; exact id
  paused := by rw [h]; exact id

theorem NextSatisfies.raisesNothing {s : State} {r : Result} (h : NextSatisfies (·.xp = s.xp) r) :
    NextSatisfies (RaisesNothing s) r :=
  nextSatisfies_iff.mpr fun t hnext => raisesNothing_of_xp (nextSatisfies_iff.mp h t hnext)

section Raising

variable (s : State)

/-- Start, continue, stop and reset clear paused, and reset clears recording (44_mtc_transport.md R285 to R289). -/
theorem raisesNothing_realtime (status : Byte) (now : Time) : RaisesNothing s (realtime status now s) := by
  unfold realtime
  split
  case h_4 | h_6 => exact raisesNothing_of_xp rfl
  case h_5 => exact { recording := nofun, paused := nofun }
  all_goals exact { recording := id, paused := nofun }

theorem raisesNothing_receivePacket (header status data1 : Byte) (now : Time) :
    RaisesNothing s (receivePacket header status data1 now s) := by
  unfold receivePacket
  cases packetClass header status with
  | realtime => exact raisesNothing_realtime s _ _
  | mtc => exact raisesNothing_of_xp (mtcPiece_xp s _ _)
  | voice | ignored => exact raisesNothing_of_xp rfl

theorem execRt_raisesNothing (status : Byte) (now : Time) :
    NextSatisfies (RaisesNothing s) (execRt status now s) := by
  unfold execRt
  split
  · exact raisesNothing_realtime s _ _
  · trivial

theorem raisesNothing_receiveFrame {bytes : List Byte} (h : bytes[4]? ≠ some 0x05) :
    RaisesNothing s (receiveFrame bytes s) := raisesNothing_of_xp (receiveFrame_xp s h)

end Raising

/-- No row that carries no frame of type 05 raises a flag: each by the lemma of the operation it stands for. -/
theorem exec_raisesNothing (i : Instr) (s : State) (hi : i.carriesTransport = false) :
    NextSatisfies (RaisesNothing s) (exec i s) :=
  match i with
  | .sxT05 .. | .xport8 _ => nomatch hi
  | .sxT01 .. | .sxT02 .. | .sxT03 .. | .sxT04 .. | .sxT06 .. => raisesNothing_receiveFrame s (by simp [frameOf])
  | .sx t track bank payload =>
    have ht : t ≠ 0x05 := of_decide_eq_false hi
    raisesNothing_receiveFrame s fun h => ht (Option.some.inj h)
  | .sxMalformed _ | .rxsysex _ => raisesNothing_receiveFrame s (of_decide_eq_false hi)
  | .pktCv8 .. | .pktCv9 .. | .pktCvA .. | .pktCvB .. | .pktCvC .. | .pktCvD .. | .pktCvE .. | .pktMtc ..
  | .pktRtF8 .. | .pktRtF9 .. | .pktRtFA .. | .pktRtFB .. | .pktRtFC .. | .pktRtFD .. | .pktRtFE .. | .pktRtFF ..
  | .pktIgnored .. | .rxpkt .. | .sysreset .. | .rtbyte .. => raisesNothing_receivePacket s _ _ _ _
  | .rt .. => execRt_raisesNothing s _ _
  | .qcode0000 .. | .qcode0001 .. | .qcode0010 .. | .qcode0011 .. | .qcode0100 .. | .qcode0101 .. | .qcode0110 ..
  | .qcode0111 .. | .qcode1000 .. | .qcode1001 .. | .qcode1010 .. | .qcode1011 .. | .qcode1100 .. | .qcode1101 ..
  | .qcode1110 .. | .qcode1111 .. => raisesNothing_of_xp (sampleCode_xp s _ _ _)
  | .qsample .. => raisesNothing_of_xp (sample_xp s _ _ _)
  | .turncw .. | .turnccw .. => raisesNothing_of_xp (turn_xp s _ _ _ _ _ _ _)
  | .qfP0 .. | .qfP1 .. | .qfP2 .. | .qfP3 .. | .qfP4 .. | .qfP5 .. | .qfP6 .. | .qfP7 .. | .mtcqf .. =>
    raisesNothing_of_xp (mtcPiece_xp s _ _)
  | .txControlChange .. | .txNoteOn .. | .txNoteOff .. | .txPitchBend .. | .txRealtime .. | .txSysEx ..
  | .rgb565 .. | .pack565 .. | .unpack565 .. | .statread .. | .serialize | .setaccel _ | .resetall | .deserialize _ =>
    raisesNothing_of_xp rfl
  | .swpoll .. => raisesNothing_of_xp (switchPoll_xp s _ _)
  | .btnpoll .. => raisesNothing_of_xp (buttonPoll_xp s _ _)
  | .applystep .. => raisesNothing_of_xp (applyStep_xp s _ _ _)
  | .applysw .. => raisesNothing_of_xp (applySw_xp s _ _)
  | .dawsync .. => raisesNothing_of_xp (dawSync_xp s _ _ _ _ _)
  | .drain => raisesNothing_of_xp (drain_xp s)
  | .qframe .. => raisesNothing_of_xp (quarterPacket_xp s _ _)
  | .setbank _ => (execSetbank_xp s _).raisesNothing
  | .resetslot .. => (execResetslot_xp s _ _).raisesNothing
  | .slotread .. => (execSlotread_xp s _ _).raisesNothing
  | .cfgwrite .. => (execCfgwrite_xp s _ _ _).raisesNothing
  | .enq _ => (execEnq_xp s _).raisesNothing
  | .flagset _ => (execFlagset_xp s _).raisesNothing
  | .flagclr _ => (execFlagclr_xp s _).raisesNothing
  | .encservice .. => (execEncservice_xp s _ _ _).raisesNothing
  | .snap16 .. => (execSnap16_xp s _ _ _).raisesNothing
  | .navenc .. => (execNavenc_xp s _ _).raisesNothing
  | .navbtn .. => (execNavbtn_xp s _ _).raisesNothing
  | .mtcfull .. => (execMtcfull_xp s _ _ _ _ _).raisesNothing

/-! ## What raises a flag in a step -/

/-- The step from `s` to `t` takes the first transaction, which is an instruction that carries a frame of type 05. -/
def TakesTransport (s t : State) : Prop :=
  ∃ x i, s.inp.inbox = x :: t.inp.inbox ∧ decode x = .ok i ∧ i.carriesTransport = true

/-- What raises a flag does not depend on the edges to come. -/
theorem raisesNothing_or_takes_irq {s t : State} {irq : List Edge}
    (h : RaisesNothing { s with inp := { s.inp with irq := irq } } t ∨
      TakesTransport { s with inp := { s.inp with irq := irq } } t) : RaisesNothing s t ∨ TakesTransport s t :=
  h.imp (fun h => { h with }) id

theorem sequencerStep_raisesNothing_or_takes {s t : State} (h : sequencerStep s = .next t) :
    RaisesNothing s t ∨ TakesTransport s t := by
  obtain ⟨v, -, rfl⟩ | ⟨-, rfl⟩ | ⟨x, rest, i, hinbox, hdec, hexec⟩ := sequencerStep_next_cases h
  · exact .inl (raisesNothing_of_xp (serviceStep_xp s v))
  · exact .inl (raisesNothing_of_xp rfl)
  · cases hi : i.carriesTransport with
    | false =>
      have hraises := nextSatisfies_iff.mp (exec_raisesNothing i _ hi) t hexec
      exact .inl { hraises with }
    | true =>
      obtain ⟨_, _, hmoves, -⟩ := exec_moves hexec
      exact .inr ⟨x, i, by rw [hmoves.inp, hinbox], hdec, hi⟩

theorem step_raisesNothing_or_takes {s t : State} (h : step s = .next t) : RaisesNothing s t ∨ TakesTransport s t := by
  by_cases hrst : s.inp.rst = 0
  · obtain ⟨irq, ⟨k, hedge⟩ | hseq⟩ := step_cases hrst
    · have hsame := nextSatisfies_iff.mp (execFlagset_xp _ k) t (hedge.symm.trans h)
      exact .inl (raisesNothing_of_xp hsame)
    · exact raisesNothing_or_takes_irq (sequencerStep_raisesNothing_or_takes (hseq.symm.trans h))
  · obtain rfl := Host.Outcome.next.inj ((step_of_reset hrst).symm.trans h)
    exact .inl { recording := nofun, paused := nofun }

/-- Settles O58: of an instruction row by row, of a step by its cases. -/
theorem onlyFramesRaiseRecordingAndPaused : Obligations.OnlyFramesRaiseRecordingAndPaused := by
  refine ⟨fun i s t h hi => ?_, fun s t h hraised => ?_⟩
  · obtain ⟨hrec, hpaused⟩ := nextSatisfies_iff.mp (exec_raisesNothing i s hi) t h
    exact ⟨hrec, hpaused⟩
  · refine (step_raisesNothing_or_takes h).resolve_left fun ⟨hrec, hpaused⟩ => ?_
    obtain ⟨hoff, hon⟩ | ⟨hoff, hon⟩ := hraised
    · exact Bool.false_ne_true (hoff.symm.trans (hrec hon))
    · exact Bool.false_ne_true (hoff.symm.trans (hpaused hon))

end Sys2Proof.Machine

/-! PROOFS. The family of 44_mtc_transport.md: the half fields a quarter frame writes, the test of the assembled time, the
realtime actions, and the status registers. -/

namespace Sys2Proof.Machine

/-! ## Pieces 0 to 6 -/

theorem exec_mtcqf_quarterByte (x : BitVec 1) (p : BitVec 3) (n : BitVec 4) (s : State) :
    exec (.mtcqf (quarterByte x p n)) s = .next (mtcPiece p n s) :=
  congrArg Host.Outcome.next (quarterFrame_quarterByte x p n s)

/-- A piece below 7 writes the timebase only (44_mtc_transport.md R273 to R276). -/
theorem exec_mtcqf_lt7 {x : BitVec 1} {p : BitVec 3} {n : BitVec 4} {s : State} {m : Mtc} (hp : p ≠ 7)
    (hm : mtcNext s.cfg.valued p n s.mtc = m) :
    exec (.mtcqf (quarterByte x p n)) s = .next { s with mtc := m } := by
  rw [exec_mtcqf_quarterByte, mtcPiece_lt7 n s hp, hm]

/-- Settles O47: each half of a field is the nibble the model's mask writes. -/
theorem quarterFramePieces : Obligations.QuarterFramePieces := by
  intro x n s
  simp only [← setLowNibble_eq, ← setHighNibble_eq]
  refine ⟨?frames_low, ?frames_high, ?seconds_low, ?seconds_high, ?minutes_low, ?minutes_high, ?hours_low⟩ <;>
  exact exec_mtcqf_lt7 (by decide) rfl

/-! ## Piece 7 -/

/-- Piece 7 writes the hours bit and `running`, then tests the time so assembled (44_mtc_transport.md R277 to R279). -/
theorem mtcNext_seven (n : BitVec 4) {m : Mtc} {hours : Byte}
    (hhours : hours = 0#3 ++ n.extractLsb' 0 1 ++ m.hours.extractLsb' 0 4) :
    mtcNext Config.r9 7 n m =
      { m with hours := hours, running := n.getLsbD 1 || n.getLsbD 2,
               valid := decide (m.frames.toNat < 30 ∧ m.seconds.toNat < 60 ∧ m.minutes.toNat < 60 ∧
                 hours.toNat < 24) } := by
  rw [hhours, ← setHighNibble_hours, ← runningOf_eq]
  exact congrArg (Mtc.mk _ _ _ _ _) (timeValid_r9 _)

/-- Settles O48: the two clauses are the two answers of the test. -/
theorem quarterFramePieceSeven : Obligations.QuarterFramePieceSeven := by
  intro x n s hp hours running
  rw [exec_mtcqf_quarterByte, mtcPiece_lastPiece (by rw [hp, mtcNext_seven n (hours := hours) rfl])]
  refine ⟨fun hvalid => ?valid, fun hinvalid => ?invalid⟩
  case valid => simp only [decide_eq_true hvalid, if_true, running]
  case invalid => simp only [decide_eq_false hinvalid, Bool.false_eq_true, if_false, running]

/-! ## Status registers -/

theorem bit_eq_toNat (v : Bool) : bit v = v.toNat := by cases v <;> rfl

theorem flagsValue_cons (v : Bool) (rest : List Bool) : flagsValue (v :: rest) = Nat.bit v (flagsValue rest) := by
  rw [Nat.bit_val, flagsValue, bit_eq_toNat, Nat.add_comm]

/-- Flag `h` is bit `h` of register 9 (10_state.md R39). -/
theorem testBit_flagsValue (l : List Bool) (h : Nat) : (flagsValue l).testBit h = l.getD h false := by
  induction l generalizing h with
  | nil => exact Nat.zero_testBit h
  | cons v rest ih =>
    rw [flagsValue_cons]
    cases h with
    | zero => exact Nat.testBit_bit_zero v _
    | succ h => exact (Nat.testBit_bit_succ h v _).trans (ih h)

theorem statusRegister_eq_none (s : State) {i : Nat} (h : 9 < i) : statusRegister s i = none := by
  unfold statusRegister
  split
  case h_11 => rfl
  all_goals omega

/-- STATREAD answers the register and does nothing else (44_mtc_transport.md R292). -/
theorem exec_statread {s : State} {i : Byte} {v : Option Nat} (h : statusRegister s i.toNat = v) :
    exec (.statread i) s = .next (s.ret (.status v)) := by
  subst h
  rfl

/-- Settles O57: each register's value, then none above 9. -/
theorem statreadReturnsTheRegister : Obligations.StatreadReturnsTheRegister := by
  intro s reads
  have register (i : Byte) {v : Nat} (h : statusRegister s i.toNat = some v) : reads i v := exec_statread h
  refine ⟨register 0 rfl, register 1 rfl, register 2 ?held, register 3 ?time, register 4 ?timebase,
    register 5 ?transport, register 6 rfl, register 7 rfl, register 8 ?enable,
    ⟨flagsValue s.ready, register 9 rfl, testBit_flagsValue s.ready⟩,
    fun i hi => exec_statread (statusRegister_eq_none s hi)⟩
  case held => exact congrArg some (OutQueue.length_contents _).symm
  case time => exact congrArg some (be32_toNat _ _ _ _)
  case timebase => simp [statusRegister, bit_eq_toNat, Nat.mul_comm]
  case transport => simp [statusRegister, bit_eq_toNat, Nat.mul_comm]
  case enable => exact congrArg some (bit_eq_toNat _)

/-! ## Realtime actions -/

/-- RT of a realtime status is its action (44_mtc_transport.md R284). -/
theorem exec_rt {status : Byte} {now : Time} {s t : State} (h : 0xF8 ≤ status.toNat) (ht : realtime status now s = t) :
    exec (.rt status now) s = .next t :=
  (if_pos h).trans (congrArg Host.Outcome.next ht)

/-- Settles O45, status by status. -/
theorem realtimeActions : Obligations.RealtimeActions := by
  intro now s
  refine ⟨?start, ?resume, ?stop, ?sensing, ?reset, ?clock, ?undefinedF9, ?undefinedFD⟩ <;>
  exact exec_rt (by decide) rfl

end Sys2Proof.Machine

/-! PROOFS. The family of 70_reset_and_hazards.md: hardware reset, the idle block, and the data-ready edge a service
loses. -/

namespace Sys2Proof.Machine

/-! ## Hardware reset and the idle block -/

/-- Every channel starts at phase 00 with an empty accumulator (10_state.md R43). -/
theorem chan_initial (cfg : Config.Params) (halves : Nat) (out : Outputs) (inp : Inputs) (ch : Fin Config.nCh) :
    (State.initial cfg halves out inp).chan ch = { phase := 0b00, acc := 0, tLast := 0 } :=
  Vector.getElem_replicate _

/-- A legal compiled-in slot spans the default bounds of 00_scope.md R9. -/
theorem defaults_bounds {cfg : Config.Params} (hcfg : cfg.wf) (b : Fin Config.nBank) (k : Fin Config.nTrack) :
    (cfg.defaults.at b k).minValue = 0 ∧ (cfg.defaults.at b k).maxValue = 127 := by
  obtain ⟨hr9, -, hdefaults, -⟩ := hcfg
  obtain ⟨-, hmin, hmax⟩ := hdefaults b k
  rw [hr9] at hmin hmax
  exact ⟨hmin, hmax⟩

/-- FLAGSET has no effect during reset: an edge that falls is taken off the edges to come and no flag is set
(70_reset_and_hazards.md R340). -/
theorem resetCycle_irq_of_edge {s : State} {e : Edge} {es : List Edge} (hirq : s.inp.irq = e :: es)
    (hdue : e.after = 0) : (resetCycle s).inp.irq = es := by
  simp only [resetCycle, hirq, hdue, if_true]

theorem tickEdges_of_no_edge {s : State} (hirq : s.inp.irq = []) :
    { s with inp := { s.inp with irq := tickEdges s.inp.irq } } = s := by
  rw [hirq, tickEdges, ← hirq]

theorem step_of_idle {s : State} (hrst : s.inp.rst = 0) (hirq : s.inp.irq = []) (hsvc : s.svc = none)
    (hinbox : s.inp.inbox = []) : step s = .next s := by
  rw [step_of_no_edge hrst (by simp [hirq]), tickEdges_of_no_edge hirq]
  exact sequencerStep_of_idle hsvc hinbox

/-- Settles O4: the cycle of reset is the initial state of the parameters, and agent SEQ rests on an empty inbox. -/
theorem hardwareResetAndIdle : Obligations.HardwareResetAndIdle := by
  refine ⟨fun s hrst => ⟨resetCycle s, step_of_reset hrst, chan_initial _ _ _ _, rfl, rfl, rfl, rfl, rfl, rfl,
    fun _ _ => rfl, ?bounds, rfl, rfl, rfl, rfl, rfl, rfl, rfl, rfl, rfl, rfl, rfl, rfl, ?edge⟩,
    fun _ => step_of_idle⟩
  case bounds => exact fun hcfg => defaults_bounds hcfg
  case edge => exact fun _ _ => resetCycle_irq_of_edge

/-! ## The edge between the samples and the clear -/

section LostEdge

variable {s : State} {v : Service}

theorem getD_ready_setFlag {k : Nat} (hk : k < s.ready.length) (d : Bool) :
    (setFlag k s).ready.getD k d = true := by
  simp [setFlag, hk]

theorem getD_ready_clearFlag {k : Nat} (hk : k < s.ready.length) (d : Bool) :
    (clearFlag k s).ready.getD k d = false := by
  simp [clearFlag, hk]

theorem length_ready_setFlag (k : Nat) : (setFlag k s).ready.length = s.ready.length := List.length_set

theorem serviceStep_of_sample (hstage : v.stage = .sample) :
    serviceStep v s = { serviceChannels v mainIndices s with svc := some { v with stage := .clear } } := by
  rw [serviceStep, hstage]

theorem serviceStep_of_clear (hstage : v.stage = .clear) :
    serviceStep v s = clearFlag v.half { s with svc := none } := by
  rw [serviceStep, hstage]

/-- The samples write no flag and no input (40_input_decoder.md R146, step 2). -/
theorem serviceStep_of_sample_keeps (hstage : v.stage = .sample) :
    (serviceStep v s).ready = s.ready ∧ (serviceStep v s).inp = s.inp := by
  rw [serviceStep_of_sample hstage, serviceChannels_frame]
  exact ⟨rfl, rfl⟩

/-- An edge on a flag that exists sets it (10_state.md R51). -/
theorem step_sets_flag {e : Edge} {es : List Edge} (hrst : s.inp.rst = 0) (hirq : s.inp.irq = e :: es)
    (hdue : e.after = 0) (hline : e.line < s.ready.length) :
    step s = .next (setFlag e.line { s with inp := { s.inp with irq := es } }) :=
  (step_of_edge hrst hirq hdue).trans (if_pos hline)

/-- The last step of a service clears its flag, whoever set it (40_input_decoder.md R146, step 3). -/
theorem step_clears_flag (hrst : s.inp.rst = 0) (hirq : s.inp.irq = []) (hsvc : s.svc = some v)
    (hstage : v.stage = .clear) : step s = .next (clearFlag v.half { s with svc := none }) := by
  rw [step_of_service hrst (by simp [hirq]) hsvc, tickEdges_of_no_edge hirq, serviceStep_of_clear hstage]

/-- Between the steps 2 and 3 of a service an edge of its own line sets the flag, and step 3 wipes it
(70_reset_and_hazards.md R350). -/
theorem edge_then_clear (hrst : s.inp.rst = 0) (hirq : s.inp.irq = [{ after := 0, line := v.half }])
    (hsvc : s.svc = some v) (hstage : v.stage = .clear) (hhalf : v.half < s.ready.length) :
    ∃ t u, step s = .next t ∧ step t = .next u ∧ t.ready.getD v.half false = true ∧
      u.ready.getD v.half true = false ∧ u.q = s.q ∧ u.svc = none ∧ u.inp.irq = [] := by
  refine ⟨_, _, step_sets_flag hrst hirq rfl hhalf, step_clears_flag hrst rfl hsvc hstage,
    getD_ready_setFlag hhalf _, getD_ready_clearFlag ?flag _, rfl, rfl, rfl⟩
  case flag => exact hhalf.trans_eq (length_ready_setFlag _).symm

end LostEdge

/-- Settles O18: the samples bring the edge to the gap before the clear. -/
theorem edgeBeforeTheClearIsLost : Obligations.EdgeBeforeTheClearIsLost := by
  intro v s hrst hsvc hstage hhalf hirq
  have hsamples := step_of_service hrst (by simp [hirq]) hsvc
  obtain ⟨hready, hinp⟩ :=
    serviceStep_of_sample_keeps (s := { s with inp := { s.inp with irq := tickEdges s.inp.irq } }) hstage
  obtain ⟨t2, t3, hedge, hclear, hrest⟩ := edge_then_clear (v := { v with stage := .clear })
    (by rw [hinp]; exact hrst) (by rw [hinp, hirq]; rfl) (congrArg State.svc (serviceStep_of_sample hstage)) rfl
    (by rw [hready]; exact hhalf)
  exact ⟨_, t2, t3, hsamples, hedge, hclear, hrest⟩

end Sys2Proof.Machine

/-! PROOFS. The family of 93_implementation_defined.md: the operands outside their declared type that U21 leaves open, and
the names under which they are refused (log 14). -/

namespace Sys2Proof.Machine

section RefusedOperands

variable {h : Nat} {s : State}

theorem exec_flagset_refused (hout : s.ready.length ≤ h) : exec (.flagset h) s = .refused (.noSuchFlag h) :=
  if_neg (Nat.not_lt.mpr hout)

theorem exec_flagclr_refused (hout : s.ready.length ≤ h) : exec (.flagclr h) s = .refused (.noSuchFlag h) :=
  if_neg (Nat.not_lt.mpr hout)

theorem exec_encservice_refused (hout : s.ready.length ≤ h) (ph : Vector (BitVec 2) Config.nMain) (now : Time) :
    exec (.encservice h ph now) s = .refused (.noSuchFlag h) :=
  if_neg (Nat.not_lt.mpr hout)

theorem exec_rt_refused {status : Byte} (hlow : status.toNat < 0xF8) (now : Time) :
    exec (.rt status now) s = .refused (.notRealtime status) :=
  if_neg (Nat.not_le.mpr hlow)

/-- Agent SEQ refuses what the decoder rejects, and no edge comes before it. -/
theorem step_of_undecodable {x : Xact} {rest : List Xact} {why : Reject} (hrst : s.inp.rst = 0)
    (hirq : s.inp.irq = []) (hsvc : s.svc = none) (hinbox : s.inp.inbox = x :: rest) (hdec : decode x = .error why) :
    step s = .refused (.undecodable why) := by
  rw [step_of_no_edge hrst (by simp [hirq])]
  exact sequencerStep_of_error hsvc hinbox hdec

end RefusedOperands

/-- Settles O60: flags, then realtime statuses, then transactions. -/
theorem operandsOutsideTheirType : Obligations.OperandsOutsideTheirType :=
  ⟨fun _ ph now _ hout => ⟨exec_flagset_refused hout, exec_flagclr_refused hout, exec_encservice_refused hout ph now⟩,
    fun _ now _ hlow => exec_rt_refused hlow now,
    fun _ _ _ _ hrst hirq hsvc hinbox hdec => step_of_undecodable hrst hirq hsvc hinbox hdec⟩

end Sys2Proof.Machine
